-- ==== Sys2Proof/Word.lean ====
section
/-! DEFINITION. The word types of the block (spec/00_scope.md R10): every value is an unsigned bit vector of a stated width. -/

namespace Sys2Proof

/-- A byte, 0..255 (00_scope.md R10). -/
abbrev Byte := BitVec 8

/-- A packet word, and a CRC-32C state (30_encoding.md R71, 00_scope.md R5). -/
abbrev Word := BitVec 32

/-- A 64-bit immediate, a response's data, and a CRC-64/XZ state (30_encoding.md R74, R78; 00_scope.md R6). -/
abbrev Word64 := BitVec 64

end Sys2Proof
end

