-- ==== Sys2Proof/Machine/Engine.lean ====
section
/-! DEFINITION. The arithmetic of the block: polynomials modulo a generator in the reflected representation (spec/00_scope.md R11 to R13),
the slice tables, the byte step, the slice-by-8 step, update and finalization (spec/40_crc32c_engine.md, spec/41_crc64xz_engine.md), the
zeros operator (spec/44_zeros.md R200, R201) and the out-byte tables (spec/43_rolling.md R171). Each is written once for a width `n` and a
reflected generator `poly`, then named at widths 32 and 64 as the spec names it. -/

namespace Sys2Proof.Machine

/-! ### Polynomials modulo the generator (00_scope.md R11 to R13) -/

/-- `mulx_n`: multiplication by x (R12). -/
def mulx {n : Nat} (poly v : BitVec n) : BitVec n :=
  (v >>> 1) ^^^ (if v.getLsbD 0 then poly else 0)

/-- `mulx_n` applied `k` times: multiplication by x^k (R12). -/
def mulxIter {n : Nat} (poly : BitVec n) : Nat → BitVec n → BitVec n
  | 0, v => v
  | k + 1, v => mulxIter poly k (mulx poly v)

/-- `reduce_n`: `mulx_n` eight times on the zero-extended byte (R12). -/
def reduce {n : Nat} (poly : BitVec n) (b : Byte) : BitVec n := mulxIter poly 8 (b.setWidth n)

/-- The loop of `mul_n` with `k` exponents still to scan: bit `k - 1` of `a` is the next coefficient, `b` has been multiplied by x once
per exponent scanned, `p` is the sum so far (R13). -/
def mulLoop {n : Nat} (poly a : BitVec n) : Nat → BitVec n → BitVec n → BitVec n
  | 0, _, p => p
  | k + 1, b, p => mulLoop poly a k (mulx poly b) (if a.getLsbD k then p ^^^ b else p)

/-- `mul_n`: the product modulo the generator (R13). -/
def mul {n : Nat} (poly a b : BitVec n) : BitVec n := mulLoop poly a n b 0

/-- `ONE_n`: the polynomial 1 (R11). -/
def oneP (n : Nat) : BitVec n := 1#n <<< (n - 1)

/-- `X8_n`: the polynomial x^8 (R11). -/
def x8P (n : Nat) : BitVec n := 1#n <<< (n - 9)

/-! ### Byte sequences (00_scope.md R15) -/

/-- `le64(d)`: byte `k` of the sequence at bits `8k+7 .. 8k`. -/
def le64 : List Byte → Word64
  | [] => 0
  | b :: rest => b.setWidth 64 ^^^ (le64 rest <<< 8)

/-- Byte `j` of a 64-bit value, bits `8j+7 .. 8j`. -/
def byteAt (x : Word64) (j : Nat) : Byte := x.extractLsb' (8 * j) 8

/-! ### Tables and steps (40 R101 to R107, 41 R121 to R127) -/

/-- `T_n[i][b]` (R101, R102; R121, R122). -/
def table {n : Nat} (poly : BitVec n) : Nat → Byte → BitVec n
  | 0, b => reduce poly b
  | i + 1, b => (table poly i b >>> 8) ^^^ reduce poly ((table poly i b).setWidth 8)

/-- The byte step (R104, R124). -/
def byteStep {n : Nat} (poly s : BitVec n) (b : Byte) : BitVec n :=
  (s >>> 8) ^^^ table poly 0 ((s ^^^ b.setWidth n).setWidth 8)

/-- The slice-by-8 step on the 64-bit word `w` (R105, R125). -/
def sliceWord {n : Nat} (poly : BitVec n) (w : Word64) : BitVec n :=
  table poly 7 (byteAt w 0) ^^^ table poly 6 (byteAt w 1) ^^^ table poly 5 (byteAt w 2) ^^^ table poly 4 (byteAt w 3) ^^^
    table poly 3 (byteAt w 4) ^^^ table poly 2 (byteAt w 5) ^^^ table poly 1 (byteAt w 6) ^^^ table poly 0 (byteAt w 7)

/-- The slice-by-8 step on a sequence of 8 bytes, the state zero-extended to meet the loaded word (R105, R125; 90_conflicts.md C5). -/
def sliceStep {n : Nat} (poly s : BitVec n) (d : List Byte) : BitVec n :=
  sliceWord poly (s.setWidth 64 ^^^ le64 d)

/-- `upd_n`: the left fold of the byte step (R107, R127). -/
def upd {n : Nat} (poly s : BitVec n) (bytes : List Byte) : BitVec n := bytes.foldl (byteStep poly) s

/-- `k` slice steps, then byte steps over what is left (42_checksummer.md R144). -/
def sliceRun {n : Nat} (poly : BitVec n) : Nat → BitVec n → List Byte → BitVec n
  | 0, s, bytes => upd poly s bytes
  | k + 1, s, bytes => sliceRun poly k (sliceStep poly s (bytes.take 8)) (bytes.drop 8)

/-- A multi-byte update: slice steps while at least 8 bytes remain, byte steps for the rest (42_checksummer.md R144). -/
def feed {n : Nat} (poly s : BitVec n) (bytes : List Byte) : BitVec n := sliceRun poly (bytes.length / 8) s bytes

/-! ### The zeros operator (44 R200, R201) -/

/-- `Z_n(N)`: the polynomial x^(8N) modulo the generator, for every natural number N (R200). It is what `zerosOp` must return. -/
def zPow {n : Nat} (poly : BitVec n) (count : Nat) : BitVec n := mulxIter poly (8 * count) (oneP n)

/-- The loop of `zeros_n`, with a bound on the iterations left (R201: "at most 64 iterations"). -/
def zerosLoop {n : Nat} (poly : BitVec n) : Nat → BitVec n → BitVec n → Word64 → BitVec n
  | 0, r, _, _ => r
  | k + 1, r, q, m =>
    if m = 0 then r
    else zerosLoop poly k (if m.getLsbD 0 then mul poly r q else r) (mul poly q q) (m >>> 1)

/-- `zeros_n(N)` (R201). -/
def zerosOp {n : Nat} (poly : BitVec n) (count : Word64) : BitVec n :=
  zerosLoop poly 64 (oneP n) (x8P n) count

/-! ### The out-byte tables (43 R171) -/

/-- The 256 entries of a table indexed by a byte. -/
def byteTable {α : Type} (f : Byte → α) : Vector α 256 :=
  ⟨⟨(List.range 256).map fun k => f (BitVec.ofNat 8 k)⟩, by simp⟩

/-- Entry `b` of a table indexed by a byte; every byte is an index (20_memory.md R51). -/
def entry {α : Type} (t : Vector α 256) (b : Byte) : α := t[b.toNat]

/-- The constant `K_n(W)` (R171). -/
def outConst {n : Nat} (poly init : BitVec n) (w : Nat) : BitVec n :=
  mul poly init (zerosOp poly (BitVec.ofNat 64 w)) ^^^ mul poly init (zerosOp poly (BitVec.ofNat 64 (w - 1)))

/-- `OB_n[b]` for window size `w` (R171). -/
def outByte {n : Nat} (poly init : BitVec n) (w : Nat) (b : Byte) : BitVec n :=
  mul poly (table poly 0 b) (zerosOp poly (BitVec.ofNat 64 (w - 1))) ^^^ outConst poly init w

/-! ### Width 32: CRC-32C (00_scope.md R5, 40 R100) -/

/-- `POLY32_R` -/
def poly32 : BitVec 32 := 0x82F63B78
/-- `INIT32` -/
def init32 : BitVec 32 := 0xFFFFFFFF
/-- `XOROUT32` -/
def xorout32 : BitVec 32 := 0xFFFFFFFF
/-- `mul_32` -/
def mul32 (a b : BitVec 32) : BitVec 32 := mul poly32 a b
/-- `T32[i][b]`, the constant ROM (10_state.md R30) -/
def t32 (i : Fin 8) (b : Byte) : BitVec 32 := table poly32 i.val b
/-- `step32` (R104) -/
def step32 (s : BitVec 32) (b : Byte) : BitVec 32 := byteStep poly32 s b
/-- `slice32` (R105) -/
def slice32 (s : BitVec 32) (d : List Byte) : BitVec 32 := sliceStep poly32 s d
/-- `upd32` (R107) -/
def upd32 (s : BitVec 32) (bytes : List Byte) : BitVec 32 := upd poly32 s bytes
/-- `upd32` as the engine evaluates it over a payload (R107, 42 R144) -/
def feed32 (s : BitVec 32) (bytes : List Byte) : BitVec 32 := feed poly32 s bytes
/-- `fin32` (R108) -/
def fin32 (s : BitVec 32) : BitVec 32 := s ^^^ xorout32
/-- `crc32c` (R109) -/
def crc32c (bytes : List Byte) : BitVec 32 := fin32 (upd32 init32 bytes)
/-- `Z_32(N)` (44 R200) -/
def z32 (count : Nat) : BitVec 32 := zPow poly32 count
/-- `zeros_32` (44 R201) -/
def zeros32 (count : Word64) : BitVec 32 := zerosOp poly32 count
/-- `OB32` for window size `w` (43 R171) -/
def outTable32 (w : Nat) : Vector (BitVec 32) 256 := byteTable (outByte poly32 init32 w)

/-! ### Width 64: CRC-64/XZ (00_scope.md R6, 41 R120) -/

/-- `POLY64_R` -/
def poly64 : BitVec 64 := 0xC96C5795D7870F42
/-- `INIT64` -/
def init64 : BitVec 64 := 0xFFFFFFFFFFFFFFFF
/-- `XOROUT64` -/
def xorout64 : BitVec 64 := 0xFFFFFFFFFFFFFFFF
/-- `mul_64` -/
def mul64 (a b : BitVec 64) : BitVec 64 := mul poly64 a b
/-- `T64[i][b]`, the constant ROM (10_state.md R30) -/
def t64 (i : Fin 8) (b : Byte) : BitVec 64 := table poly64 i.val b
/-- `step64` (R124) -/
def step64 (s : BitVec 64) (b : Byte) : BitVec 64 := byteStep poly64 s b
/-- `slice64` (R125) -/
def slice64 (s : BitVec 64) (d : List Byte) : BitVec 64 := sliceStep poly64 s d
/-- `upd64` (R127) -/
def upd64 (s : BitVec 64) (bytes : List Byte) : BitVec 64 := upd poly64 s bytes
/-- `upd64` as the engine evaluates it over a payload (R127, 42 R144) -/
def feed64 (s : BitVec 64) (bytes : List Byte) : BitVec 64 := feed poly64 s bytes
/-- `fin64` (R128) -/
def fin64 (s : BitVec 64) : BitVec 64 := s ^^^ xorout64
/-- `crc64xz` (R129) -/
def crc64xz (bytes : List Byte) : BitVec 64 := fin64 (upd64 init64 bytes)
/-- `Z_64(N)` (44 R200) -/
def z64 (count : Nat) : BitVec 64 := zPow poly64 count
/-- `zeros_64` (44 R201) -/
def zeros64 (count : Word64) : BitVec 64 := zerosOp poly64 count
/-- `OB64` for window size `w` (43 R171) -/
def outTable64 (w : Nat) : Vector (BitVec 64) 256 := byteTable (outByte poly64 init64 w)

end Sys2Proof.Machine
end

