-- ==== Sys2Proof/Machine/Operands.lean ====
section
/-! DEFINITION. The operand forms of the commands and the forms of their results (spec/30_encoding.md R74, R78, R84). A byte `b`, a table
index `ti`, an operator register and a payload are used as decoded; the two forms with a conversion stand here. -/

namespace Sys2Proof.Machine

/-- The 8 message bytes of `CK.UPD64`, `[imm64[7:0], imm64[15:8], ..., imm64[63:56]]` (42_checksummer.md R143). -/
def messageBytes (imm : Word64) : List Byte :=
  [byteAt imm 0, byteAt imm 1, byteAt imm 2, byteAt imm 3, byteAt imm 4, byteAt imm 5, byteAt imm 6, byteAt imm 7]

/-- A 32-bit result as response data: `zext_64` (30_encoding.md R78). -/
def data32 (v : BitVec 32) : Word64 := v.setWidth 64

/-- The data of a command that returns nothing (30_encoding.md R78). -/
def noData : Word64 := 0

end Sys2Proof.Machine
end

