-- ==== Sys2Proof/Config.lean ====
section
/-! DEFINITION. What an implementation of the block fixes (spec/00_scope.md R7). The one open parameter, WMAX, is a field of State,
which is how the model takes it as an argument; here stands only the value State.reset gives it. -/

namespace Sys2Proof.Config

/-- `NZ`, the number of zeros-operator registers (00_scope.md R7). -/
abbrev nz : Nat := 4

/-- `LENMAX`, the largest payload length of a Format P packet (00_scope.md R7). -/
abbrev lenMax : Nat := 4294967295

/-- The value State.reset gives the open parameter WMAX: the largest that 00_scope.md R7 admits.
DESIGN CHOICE, unsafe (notes/assumptions/4.md): a claim about every block is a claim about every `wmax`, never about this one. -/
def wmaxAtReset : Word := 0xFFFFFFFF

end Sys2Proof.Config
end

