-- ==== Sys2Proof/Syntax.lean ====
section
/-! DEFINITION. The commands of the block, one constructor per row of spec/opcode_table.json, their opcodes and formats, and the packets
that carry them (spec/30_encoding.md R71 to R76). -/

namespace Sys2Proof

/-- The name `z0`..`z3` of a zeros-operator register, a 2-bit selector (30_encoding.md R72). -/
abbrev ZReg := Fin 4

/-- The index of a slice table `T[0]`..`T[7]`, a 3-bit selector (30_encoding.md R72). -/
abbrev TabIx := Fin 8

/-- The 24 commands with their operands (30_encoding.md R76, R84). A payload is its byte sequence; `CK.WRS32` carries only the low word
of its immediate, since the high word must be 0 (R74). -/
inductive Instr where
  | ckInit
  | ckUpd8 (b : Byte)
  | ckUpd64 (imm : Word64)
  | ckUpdN (bytes : List Byte)
  | ckGet32
  | ckGet64
  | ckRds32
  | ckRds64
  | ckWrs32 (v : Word)
  | ckWrs64 (v : Word64)
  | tbRd32 (ti : TabIx) (b : Byte)
  | tbRd64 (ti : TabIx) (b : Byte)
  | rlNew (bytes : List Byte)
  | rlRoll (b : Byte)
  | rlRollN (bytes : List Byte)
  | rlGet32
  | rlGet64
  | rlRdob32 (b : Byte)
  | rlRdob64 (b : Byte)
  | zrNew (zd : ZReg) (count : Word64)
  | zrMul (zd za zb : ZReg)
  | zrApply (za : ZReg)
  | zrRd32 (za : ZReg)
  | zrRd64 (za : ZReg)
  deriving DecidableEq, Repr

/-- The 24 rows of the opcode map (30_encoding.md R76), without operands. -/
inductive Opcode where
  | ckInit | ckUpd8 | ckUpd64 | ckUpdN | ckGet32 | ckGet64 | ckRds32 | ckRds64 | ckWrs32 | ckWrs64
  | tbRd32 | tbRd64
  | rlNew | rlRoll | rlRollN | rlGet32 | rlGet64 | rlRdob32 | rlRdob64
  | zrNew | zrMul | zrApply | zrRd32 | zrRd64
  deriving DecidableEq, Repr

/-- The three packet formats (30_encoding.md R73, R74, R75). -/
inductive Format where
  /-- Format N: the header word alone. -/
  | noExt
  /-- Format I: a 64-bit immediate in two extension words. -/
  | imm
  /-- Format P: a length word and a padded payload. -/
  | payload
  deriving DecidableEq, Repr

/-- A packet: a non-empty sequence of words, `P[0]` the header and the rest the extension words (30_encoding.md R71).
An empty packet "cannot be presented", so the type has none. -/
structure Packet where
  /-- `P[0]` -/
  head : Word
  /-- `P[1], P[2], ...` -/
  ext  : List Word
  deriving DecidableEq, Repr

/-- Why a packet is illegal: the five causes (a) to (e) of 30_encoding.md R77. All are answered `E_ILLEGAL`. -/
inductive Illegal where
  /-- (a) the opcode is not one of the 24 -/
  | unknownOpcode
  /-- (b) a reserved bit or an unused field of the header is nonzero -/
  | headerBits
  /-- (c) the word count is not the format's -/
  | wordCount
  /-- (d) a padding byte of the last payload word is nonzero -/
  | padding
  /-- (e) the high immediate word of `CK.WRS32` is nonzero -/
  | highWord
  deriving DecidableEq, Repr

end Sys2Proof
end

