-- ==== Sys2Proof/WellFormed.lean ====
section
/-! DEFINITION. Which terms of Instr a packet can carry. Selectors, bytes and immediates are in range by their types; the one check left
is the payload length, a 32-bit word (spec/30_encoding.md R75). -/

namespace Sys2Proof

/-- The payload of a Format P command, empty for the others (30_encoding.md R75). -/
def Instr.payload : Instr → List Byte
  | .ckUpdN bytes => bytes
  | .rlNew bytes => bytes
  | .rlRollN bytes => bytes
  | _ => []

/-- `0 <= LEN <= 2^32 - 1` (30_encoding.md R75). -/
def Instr.wf (i : Instr) : Bool := decide (i.payload.length ≤ Config.lenMax)

end Sys2Proof
end

