-- ==== Sys2Proof/Decode.lean ====
section
/-! DEFINITION. Decoding a packet into a command or a named reason why it is illegal (spec/30_encoding.md R71 to R80), and the encoder
written from the same tables. -/

namespace Sys2Proof

/-! ### The opcode map (30_encoding.md R76) -/

/-- Column `op`. -/
def Opcode.code : Opcode → Byte
  | .ckInit => 0x00 | .ckUpd8 => 0x01 | .ckUpd64 => 0x02 | .ckUpdN => 0x03 | .ckGet32 => 0x04
  | .ckGet64 => 0x05 | .ckRds32 => 0x06 | .ckRds64 => 0x07 | .ckWrs32 => 0x08 | .ckWrs64 => 0x09
  | .tbRd32 => 0x10 | .tbRd64 => 0x11
  | .rlNew => 0x20 | .rlRoll => 0x21 | .rlRollN => 0x22 | .rlGet32 => 0x23 | .rlGet64 => 0x24
  | .rlRdob32 => 0x25 | .rlRdob64 => 0x26
  | .zrNew => 0x30 | .zrMul => 0x31 | .zrApply => 0x32 | .zrRd32 => 0x33 | .zrRd64 => 0x34

/-- Column `fmt`. -/
def Opcode.format : Opcode → Format
  | .ckUpd64 | .ckWrs32 | .ckWrs64 | .zrNew => .imm
  | .ckUpdN | .rlNew | .rlRollN => .payload
  | .ckInit | .ckUpd8 | .ckGet32 | .ckGet64 | .ckRds32 | .ckRds64 | .tbRd32 | .tbRd64 | .rlRoll
  | .rlGet32 | .rlGet64 | .rlRdob32 | .rlRdob64 | .zrMul | .zrApply | .zrRd32 | .zrRd64 => .noExt

/-- Column `match`. -/
def Opcode.matchWord : Opcode → Word
  | .ckInit => 0x00000000 | .ckUpd8 => 0x01000000 | .ckUpd64 => 0x02000000 | .ckUpdN => 0x03000000
  | .ckGet32 => 0x04000000 | .ckGet64 => 0x05000000 | .ckRds32 => 0x06000000 | .ckRds64 => 0x07000000
  | .ckWrs32 => 0x08000000 | .ckWrs64 => 0x09000000
  | .tbRd32 => 0x10000000 | .tbRd64 => 0x11000000
  | .rlNew => 0x20000000 | .rlRoll => 0x21000000 | .rlRollN => 0x22000000 | .rlGet32 => 0x23000000
  | .rlGet64 => 0x24000000 | .rlRdob32 => 0x25000000 | .rlRdob64 => 0x26000000
  | .zrNew => 0x30000000 | .zrMul => 0x31000000 | .zrApply => 0x32000000 | .zrRd32 => 0x33000000
  | .zrRd64 => 0x34000000

/-- Column `mask`: every reserved bit and every field the command does not use, with the opcode. -/
def Opcode.mask : Opcode → Word
  | .ckUpd8 | .rlRoll | .rlRdob32 | .rlRdob64 => 0xFFFFFF00
  | .tbRd32 | .tbRd64 => 0xFFFFF800
  | .zrNew => 0xFFCFFFFF
  | .zrMul => 0xFFCCCFFF
  | .zrApply | .zrRd32 | .zrRd64 => 0xFFFCFFFF
  | .ckInit | .ckUpd64 | .ckUpdN | .ckGet32 | .ckGet64 | .ckRds32 | .ckRds64 | .ckWrs32 | .ckWrs64
  | .rlNew | .rlRollN | .rlGet32 | .rlGet64 => 0xFFFFFFFF

/-- The 24 rows in the table's order. -/
def Opcode.all : List Opcode :=
  [.ckInit, .ckUpd8, .ckUpd64, .ckUpdN, .ckGet32, .ckGet64, .ckRds32, .ckRds64, .ckWrs32, .ckWrs64,
   .tbRd32, .tbRd64, .rlNew, .rlRoll, .rlRollN, .rlGet32, .rlGet64, .rlRdob32, .rlRdob64,
   .zrNew, .zrMul, .zrApply, .zrRd32, .zrRd64]

/-- The row of an opcode number, none for the 232 reserved values (R77 (a)). -/
def Opcode.ofCode (c : Byte) : Option Opcode := Opcode.all.find? fun o => o.code == c

/-- The row an instruction is encoded by. -/
def Instr.opcode : Instr → Opcode
  | .ckInit => .ckInit | .ckUpd8 _ => .ckUpd8 | .ckUpd64 _ => .ckUpd64 | .ckUpdN _ => .ckUpdN
  | .ckGet32 => .ckGet32 | .ckGet64 => .ckGet64 | .ckRds32 => .ckRds32 | .ckRds64 => .ckRds64
  | .ckWrs32 _ => .ckWrs32 | .ckWrs64 _ => .ckWrs64
  | .tbRd32 _ _ => .tbRd32 | .tbRd64 _ _ => .tbRd64
  | .rlNew _ => .rlNew | .rlRoll _ => .rlRoll | .rlRollN _ => .rlRollN | .rlGet32 => .rlGet32
  | .rlGet64 => .rlGet64 | .rlRdob32 _ => .rlRdob32 | .rlRdob64 _ => .rlRdob64
  | .zrNew _ _ => .zrNew | .zrMul _ _ _ => .zrMul | .zrApply _ => .zrApply | .zrRd32 _ => .zrRd32
  | .zrRd64 _ => .zrRd64

/-! ### Header fields (30_encoding.md R72) -/

/-- Bits 31:24. -/
def fieldOp (h : Word) : Byte := h.extractLsb' 24 8
/-- Bits 21:20. -/
def fieldZd (h : Word) : ZReg := (h.extractLsb' 20 2).toFin
/-- Bits 17:16. -/
def fieldZa (h : Word) : ZReg := (h.extractLsb' 16 2).toFin
/-- Bits 13:12. -/
def fieldZb (h : Word) : ZReg := (h.extractLsb' 12 2).toFin
/-- Bits 10:8. -/
def fieldTi (h : Word) : TabIx := (h.extractLsb' 8 3).toFin
/-- Bits 7:0. -/
def fieldB (h : Word) : Byte := h.extractLsb' 0 8

/-- A header word from its fields, every reserved bit 0. -/
def header (o : Opcode) (zd za zb : ZReg) (ti : TabIx) (b : Byte) : Word :=
  o.code ++ 0#2 ++ BitVec.ofNat 2 zd.val ++ 0#2 ++ BitVec.ofNat 2 za.val ++ 0#2 ++ BitVec.ofNat 2 zb.val ++ 0#1 ++
    BitVec.ofNat 3 ti.val ++ b

/-! ### Extension words (30_encoding.md R74, R75) -/

/-- `imm64 = {P[2], P[1]}`, the low word first (R74). -/
def immOfWords (lo hi : Word) : Word64 := hi ++ lo

/-- `P[1], P[2]` of an immediate (R74). -/
def wordsOfImm (v : Word64) : List Word := [v.extractLsb' 0 32, v.extractLsb' 32 32]

/-- The four byte lanes of a payload word, lane 0 in bits 7:0 (R75). -/
def wordBytes (v : Word) : List Byte :=
  [v.extractLsb' 0 8, v.extractLsb' 8 8, v.extractLsb' 16 8, v.extractLsb' 24 8]

/-- The payload word with byte lanes 0 to 3 (R75). -/
def wordOfBytes (b0 b1 b2 b3 : Byte) : Word := b3 ++ b2 ++ b1 ++ b0

/-- `ceil(LEN / 4)`, the payload words of a Format P packet (R75), in natural numbers (00_scope.md R17 (d)). -/
def payloadWords (len : Nat) : Nat := (len + 3) / 4

/-- The payload words of a byte sequence, the unused lanes of the last one 0 (R75). -/
def packBytes : List Byte → List Word
  | [] => []
  | [b0] => [wordOfBytes b0 0 0 0]
  | [b0, b1] => [wordOfBytes b0 b1 0 0]
  | [b0, b1, b2] => [wordOfBytes b0 b1 b2 0]
  | b0 :: b1 :: b2 :: b3 :: rest => wordOfBytes b0 b1 b2 b3 :: packBytes rest

/-! ### Decoding -/

/-- Format N: no extension words (R73). -/
def decodeNoExt (ext : List Word) (i : Instr) : Except Illegal Instr :=
  match ext with
  | [] => .ok i
  | _ :: _ => .error .wordCount

/-- Format I: exactly two extension words (R74). -/
def decodeImm (ext : List Word) (mk : Word64 → Instr) : Except Illegal Instr :=
  match ext with
  | [lo, hi] => .ok (mk (immOfWords lo hi))
  | _ => .error .wordCount

/-- Format I with the high word 0, as `CK.WRS32` asks (R74, R77 (e)). -/
def decodeImmLow (ext : List Word) (mk : Word → Instr) : Except Illegal Instr :=
  match ext with
  | [lo, hi] => if hi = 0 then .ok (mk lo) else .error .highWord
  | _ => .error .wordCount

/-- Format P: the LEN word, `ceil(LEN/4)` payload words, zero padding (R75). -/
def decodePayload (ext : List Word) (mk : List Byte → Instr) : Except Illegal Instr :=
  match ext with
  | [] => .error .wordCount
  | len :: ws =>
    if ws.length = payloadWords len.toNat then
      let lanes := ws.flatMap wordBytes
      if (lanes.drop len.toNat).all (fun b => b == 0) then .ok (mk (lanes.take len.toNat)) else .error .padding
    else .error .wordCount

/-- The operands of a row's command, taken from the header and the extension words (R73 to R75, R84). -/
def decodeOperands (o : Opcode) (h : Word) (ext : List Word) : Except Illegal Instr :=
  match o with
  | .ckInit => decodeNoExt ext .ckInit
  | .ckUpd8 => decodeNoExt ext (.ckUpd8 (fieldB h))
  | .ckUpd64 => decodeImm ext .ckUpd64
  | .ckUpdN => decodePayload ext .ckUpdN
  | .ckGet32 => decodeNoExt ext .ckGet32
  | .ckGet64 => decodeNoExt ext .ckGet64
  | .ckRds32 => decodeNoExt ext .ckRds32
  | .ckRds64 => decodeNoExt ext .ckRds64
  | .ckWrs32 => decodeImmLow ext .ckWrs32
  | .ckWrs64 => decodeImm ext .ckWrs64
  | .tbRd32 => decodeNoExt ext (.tbRd32 (fieldTi h) (fieldB h))
  | .tbRd64 => decodeNoExt ext (.tbRd64 (fieldTi h) (fieldB h))
  | .rlNew => decodePayload ext .rlNew
  | .rlRoll => decodeNoExt ext (.rlRoll (fieldB h))
  | .rlRollN => decodePayload ext .rlRollN
  | .rlGet32 => decodeNoExt ext .rlGet32
  | .rlGet64 => decodeNoExt ext .rlGet64
  | .rlRdob32 => decodeNoExt ext (.rlRdob32 (fieldB h))
  | .rlRdob64 => decodeNoExt ext (.rlRdob64 (fieldB h))
  | .zrNew => decodeImm ext (.zrNew (fieldZd h))
  | .zrMul => decodeNoExt ext (.zrMul (fieldZd h) (fieldZa h) (fieldZb h))
  | .zrApply => decodeNoExt ext (.zrApply (fieldZa h))
  | .zrRd32 => decodeNoExt ext (.zrRd32 (fieldZa h))
  | .zrRd64 => decodeNoExt ext (.zrRd64 (fieldZa h))

/-- Decode a packet, the checks in the order of R79; it depends on the packet alone (R70). -/
def decode (p : Packet) : Except Illegal Instr :=
  match Opcode.ofCode (fieldOp p.head) with
  | none => .error .unknownOpcode
  | some o =>
    if p.head &&& o.mask = o.matchWord then decodeOperands o p.head p.ext else .error .headerBits

/-! ### Encoding -/

/-- The header word of an instruction: its opcode and the fields it uses, the rest 0 (R72). -/
def encodeHead : Instr → Word
  | .ckUpd8 b => header .ckUpd8 0 0 0 0 b
  | .tbRd32 ti b => header .tbRd32 0 0 0 ti b
  | .tbRd64 ti b => header .tbRd64 0 0 0 ti b
  | .rlRoll b => header .rlRoll 0 0 0 0 b
  | .rlRdob32 b => header .rlRdob32 0 0 0 0 b
  | .rlRdob64 b => header .rlRdob64 0 0 0 0 b
  | .zrNew zd _ => header .zrNew zd 0 0 0 0
  | .zrMul zd za zb => header .zrMul zd za zb 0 0
  | .zrApply za => header .zrApply 0 za 0 0 0
  | .zrRd32 za => header .zrRd32 0 za 0 0 0
  | .zrRd64 za => header .zrRd64 0 za 0 0 0
  | .ckInit => header .ckInit 0 0 0 0 0
  | .ckUpd64 _ => header .ckUpd64 0 0 0 0 0
  | .ckUpdN _ => header .ckUpdN 0 0 0 0 0
  | .ckGet32 => header .ckGet32 0 0 0 0 0
  | .ckGet64 => header .ckGet64 0 0 0 0 0
  | .ckRds32 => header .ckRds32 0 0 0 0 0
  | .ckRds64 => header .ckRds64 0 0 0 0 0
  | .ckWrs32 _ => header .ckWrs32 0 0 0 0 0
  | .ckWrs64 _ => header .ckWrs64 0 0 0 0 0
  | .rlNew _ => header .rlNew 0 0 0 0 0
  | .rlRollN _ => header .rlRollN 0 0 0 0 0
  | .rlGet32 => header .rlGet32 0 0 0 0 0
  | .rlGet64 => header .rlGet64 0 0 0 0 0

/-- The LEN word and the payload words of a byte sequence (R75). -/
def encodePayload (bytes : List Byte) : List Word := BitVec.ofNat 32 bytes.length :: packBytes bytes

/-- The extension words of an instruction (R73 to R75). -/
def encodeExt : Instr → List Word
  | .ckUpd64 imm => wordsOfImm imm
  | .ckUpdN bytes => encodePayload bytes
  | .ckWrs32 v => [v, 0]
  | .ckWrs64 v => wordsOfImm v
  | .rlNew bytes => encodePayload bytes
  | .rlRollN bytes => encodePayload bytes
  | .zrNew _ count => wordsOfImm count
  | .ckInit | .ckUpd8 _ | .ckGet32 | .ckGet64 | .ckRds32 | .ckRds64 | .tbRd32 _ _ | .tbRd64 _ _ | .rlRoll _
  | .rlGet32 | .rlGet64 | .rlRdob32 _ | .rlRdob64 _ | .zrMul _ _ _ | .zrApply _ | .zrRd32 _ | .zrRd64 _ => []

/-- The packet of an instruction. -/
def encode (i : Instr) : Packet := ⟨encodeHead i, encodeExt i⟩

/-! ### Packets laid out as one number (spec/opcode_table.json's numbering) -/

/-- Word `k` of a number whose bits count on from the first word. -/
def wordOfNumber (w k : Nat) : Word := BitVec.ofNat 32 (w >>> (32 * k))

/-- The extension words `first, first + 1, ...` of a number, `count` of them. -/
def wordsOfNumber (w first : Nat) : Nat → List Word
  | 0 => []
  | count + 1 => wordOfNumber w first :: wordsOfNumber w (first + 1) count

/-- How many extension words the host frames for a header: what its format asks, none for a reserved opcode (R73 to R75, R80). -/
def framedWords (h : Word) (w : Nat) : Nat :=
  match Opcode.ofCode (fieldOp h) with
  | none => 0
  | some o =>
    match o.format with
    | .noExt => 0
    | .imm => 2
    | .payload => 1 + payloadWords (wordOfNumber w 1).toNat

/-- The packet whose words are the bits of `w` below `nbits`, bit 0 the least significant of `P[0]`, every bit above them 0,
framed to the length its header's format asks (notes/assumptions/11.md). -/
def Packet.ofNumber (nbits w : Nat) : Packet :=
  let low := w % 2 ^ nbits
  let h := wordOfNumber low 0
  ⟨h, wordsOfNumber low 1 (framedWords h low)⟩

/-- The instruction the decoder reads from the bits of `w`, numbered as spec/opcode_table.json numbers them. -/
def decodeTableWord (nbits w : Nat) : Option Instr :=
  match decode (Packet.ofNumber nbits w) with
  | .ok i => some i
  | .error _ => none

end Sys2Proof
end

