-- ==== Sys2Proof/Machine/State.lean ====
section
/-! DEFINITION. The state of the block (spec/10_state.md R20) as plain data, with the host's pending actions, the responses given and the
open parameter WMAX beside it, and the state after reset (R32). The table ROMs T32 and T64 are constants and stand in Machine/Engine.lean
(R30; notes/assumptions/6.md). -/

namespace Sys2Proof.Machine

/-- The five status codes (60_exceptions.md R231). -/
inductive Status where
  | ok
  | eIllegal
  | eInvalidWindow
  | eNoWindow
  | eCapacity
  deriving DecidableEq, Repr

/-- A response: its status and 64 bits of data (30_encoding.md R78). -/
structure Response where
  status : Status
  data   : Word64
  deriving DecidableEq, Repr

/-- What the host can do to the block, the complete list (70_reset_and_hazards.md R263). -/
inductive HostAction where
  /-- send one framed packet -/
  | packet (p : Packet)
  /-- apply reset, between commands -/
  | reset
  deriving DecidableEq, Repr

/-- A zeros-operator register: the operators of both polynomials (10_state.md R24). -/
structure ZOp where
  p32 : BitVec 32
  p64 : BitVec 64
  deriving DecidableEq, Repr

/-- The state of the block. -/
structure State where
  /-- `C32` (10_state.md R21) -/
  c32 : BitVec 32
  /-- `C64` (R22) -/
  c64 : BitVec 64
  /-- `RS32` (R23) -/
  rs32 : BitVec 32
  /-- `RS64` (R23) -/
  rs64 : BitVec 64
  /-- `ZR[0]`..`ZR[3]` (R24) -/
  zr : Vector ZOp Config.nz
  /-- `RVALID` (R25) -/
  rvalid : Bool
  /-- `W` (R26) -/
  w : BitVec 32
  /-- `POS` (R26) -/
  pos : BitVec 32
  /-- `WIN[0..W-1]`, slot 0 first (R28) -/
  win : List Byte
  /-- `OB32[0..255]` (R29) -/
  ob32 : Vector (BitVec 32) 256
  /-- `OB64[0..255]` (R29) -/
  ob64 : Vector (BitVec 64) 256
  /-- `WMAX`, the model's argument (00_scope.md R7; notes/assumptions/4.md) -/
  wmax : BitVec 32
  /-- the host's actions not yet taken, the next one first (00_scope.md R9, 10_state.md R27; notes/assumptions/2.md) -/
  inbox : List HostAction
  /-- the responses given since reset, oldest first (00_scope.md R9; notes/assumptions/1.md) -/
  responses : List Response
  deriving DecidableEq, Repr

/-- No step of the block faults: "There is no halt instruction, no infinite run and no stuck state" (00_scope.md R9), every index is in
range (20_memory.md R51), and an error is a response (60_exceptions.md R230, R232). So the type has no constructor: nobody raises a
fault, and that the type says so is safe. -/
inductive Fault where
  deriving DecidableEq, Repr

/-- Why a command would get no meaning. -/
inductive Refusal where
  /-- Raised by a refused arm of `exec` for a command that has no meaning yet; no arm is one, so no step refuses. Safe: a refusal
  stops the machine. -/
  | notModelled (mnemonic : String)
  deriving DecidableEq, Repr

/-- The identity operator, `Zeros::new(0)` (10_state.md R24, R32). -/
def identityOp : ZOp := ⟨0x80000000, 0x8000000000000000⟩

/-- The machine right after reset (10_state.md R32). The spec gives `W`, `POS`, `WIN`, `RS32`, `RS64`, `OB32`, `OB64` no value: they
are 0 or empty here, DESIGN CHOICE, unsafe (notes/assumptions/5.md); `WMAX` is DESIGN CHOICE, unsafe (notes/assumptions/4.md). -/
def State.reset : State where
  c32 := 0xFFFFFFFF
  c64 := 0xFFFFFFFFFFFFFFFF
  rs32 := 0
  rs64 := 0
  zr := Vector.replicate Config.nz identityOp
  rvalid := false
  w := 0
  pos := 0
  win := []
  ob32 := Vector.replicate 256 0
  ob64 := Vector.replicate 256 0
  wmax := Config.wmaxAtReset
  inbox := []
  responses := []

end Sys2Proof.Machine
end

