-- ==== Sys2Proof/Machine/Ops.lean ====
section
/-! DEFINITION. The named operations over the state: the registers, the rolling context, responses, the one error mechanism
(spec/60_exceptions.md R232), taking the host's next action and reset. -/

namespace Sys2Proof.Machine

/-- The outcome type of the block's steps. -/
abbrev Result := Host.Outcome State Fault Refusal

/-! ### Status codes (60_exceptions.md R231) -/

/-- The 8-bit code of a status. -/
def Status.code : Status → Byte
  | .ok => 0x00
  | .eIllegal => 0x01
  | .eInvalidWindow => 0x02
  | .eNoWindow => 0x03
  | .eCapacity => 0x04

/-! ### Registers -/

/-- Write both registers of the checksummer pair, always together (10_state.md R22, 20_memory.md R57). -/
def State.setPair (s : State) (v32 : BitVec 32) (v64 : BitVec 64) : State := { s with c32 := v32, c64 := v64 }

/-- Write `C32` alone, as only `CK.WRS32` does (10_state.md R22). -/
def State.setC32 (s : State) (v : BitVec 32) : State := { s with c32 := v }

/-- Write `C64` alone, as only `CK.WRS64` does (10_state.md R22). -/
def State.setC64 (s : State) (v : BitVec 64) : State := { s with c64 := v }

/-- Read `ZR[k]` (10_state.md R24). -/
def State.getZr (s : State) (k : ZReg) : ZOp := s.zr[k.val]

/-- Write both halves of `ZR[k]` (10_state.md R24, R33 (c)). -/
def State.setZr (s : State) (k : ZReg) (v : ZOp) : State := { s with zr := s.zr.set k.val v }

/-! ### The rolling context (10_state.md R23, R25, R26, R28, R29) -/

/-- The window slot at the read position, the oldest byte of the window (R26). `POS` is a slot in every state a run reaches (R33); outside
them there is no such slot and the read is 0 (notes/assumptions/7.md). -/
def State.oldest (s : State) : Byte := s.win.getD s.pos.toNat 0

/-- `(POS + 1) mod W`, in natural numbers (00_scope.md R17 (d)). -/
def State.nextPos (s : State) : BitVec 32 := BitVec.ofNat 32 ((s.pos.toNat + 1) % s.w.toNat)

/-- The body of `RL.ROLL` (43_rolling.md R173): compensate the leaving byte, step, overwrite the slot, advance the read position. -/
def State.rollByte (s : State) (b : Byte) : State :=
  { s with
    rs32 := step32 (s.rs32 ^^^ entry s.ob32 s.oldest) b
    rs64 := step64 (s.rs64 ^^^ entry s.ob64 s.oldest) b
    win := s.win.set s.pos.toNat b
    pos := s.nextPos }

/-- The writes of a successful `RL.NEW` (43_rolling.md R172): a whole new rolling context for the window `bytes`. -/
def State.installWindow (s : State) (bytes : List Byte) : State :=
  { s with
    w := BitVec.ofNat 32 bytes.length
    win := bytes
    pos := 0
    rs32 := feed32 init32 bytes
    rs64 := feed64 init64 bytes
    ob32 := outTable32 bytes.length
    ob64 := outTable64 bytes.length
    rvalid := true }

/-! ### Responses and errors -/

/-- Give one response (30_encoding.md R78). -/
def State.respond (s : State) (status : Status) (data : Word64) : State :=
  { s with responses := s.responses ++ [⟨status, data⟩] }

/-- `respond(OK, data)`: end a command with its result (00_scope.md R14). -/
def answer (s : State) (data : Word64) : Result := .next (s.respond .ok data)

/-- `raise E`: the one error mechanism (60_exceptions.md R232). No state changes, the response is `(E, 0)`, nothing else is recorded. -/
def raiseError (s : State) (e : Status) : Result := .next (s.respond e noData)

/-! ### The host (70_reset_and_hazards.md R260, R263) -/

/-- The state with the host's next action taken from the list. -/
def State.withInbox (s : State) (rest : List HostAction) : State := { s with inbox := rest }

/-- Reset (R260): the reset state, for the same `WMAX` and the same host (notes/assumptions/8.md). It gives no response (R261). -/
def State.afterReset (s : State) : State := { State.reset with wmax := s.wmax, inbox := s.inbox }

end Sys2Proof.Machine
end

