-- ==== Sys2Proof/Machine/Checksummer.lean ====
section
/-! DEFINITION. The combined checksummer commands (spec/42_checksummer.md R141 to R150). They cannot fail once the packet is legal
(60_exceptions.md R244). -/

namespace Sys2Proof.Machine

/-- `CK.INIT` (R141). -/
def execCkInit (s : State) : Result := answer (s.setPair init32 init64) noData

/-- `CK.UPD8 b` (R142). -/
def execCkUpd8 (b : Byte) (s : State) : Result := answer (s.setPair (step32 s.c32 b) (step64 s.c64 b)) noData

/-- `CK.UPD64 imm64` (R143). -/
def execCkUpd64 (imm : Word64) (s : State) : Result :=
  answer (s.setPair (slice32 s.c32 (messageBytes imm)) (slice64 s.c64 (messageBytes imm))) noData

/-- `CK.UPDN payload` (R144). -/
def execCkUpdN (bytes : List Byte) (s : State) : Result :=
  answer (s.setPair (feed32 s.c32 bytes) (feed64 s.c64 bytes)) noData

/-- `CK.GET32` (R145). -/
def execCkGet32 (s : State) : Result := answer s (data32 (fin32 s.c32))

/-- `CK.GET64` (R146). -/
def execCkGet64 (s : State) : Result := answer s (fin64 s.c64)

/-- `CK.RDS32` (R147). -/
def execCkRds32 (s : State) : Result := answer s (data32 s.c32)

/-- `CK.RDS64` (R148). -/
def execCkRds64 (s : State) : Result := answer s s.c64

/-- `CK.WRS32 imm` (R149). -/
def execCkWrs32 (v : Word) (s : State) : Result := answer (s.setC32 v) noData

/-- `CK.WRS64 imm` (R150). -/
def execCkWrs64 (v : Word64) (s : State) : Result := answer (s.setC64 v) noData

end Sys2Proof.Machine
end

