-- ==== Sys2Proof/Machine/Flags.lean ====
section
/-! DEFINITION. The block's only flag, `RVALID` (spec/10_state.md R25). There are no condition codes, and no command but a successful
`RL.NEW` writes a flag; the one flag computation is the guard of the rolling commands. -/

namespace Sys2Proof.Machine

/-- `if RVALID = 0 then raise E_NO_WINDOW`, then the rest of the command (60_exceptions.md R235). -/
def withWindow (s : State) (body : Result) : Result := if s.rvalid then body else raiseError s .eNoWindow

end Sys2Proof.Machine
end

