-- ==== Sys2Proof/Machine/Rolling.lean ====
section
/-! DEFINITION. The rolling-window commands (spec/43_rolling.md R172 to R178). -/

namespace Sys2Proof.Machine

/-- `RL.NEW payload` (R172): the two checks, in the rule's order, then the whole construction. -/
def execRlNew (bytes : List Byte) (s : State) : Result :=
  if bytes.length = 0 then raiseError s .eInvalidWindow
  else if s.wmax.toNat < bytes.length then raiseError s .eCapacity
  else answer (s.installWindow bytes) noData

/-- `RL.ROLL b` (R173). -/
def execRlRoll (b : Byte) (s : State) : Result := withWindow s (answer (s.rollByte b) noData)

/-- `RL.ROLLN payload` (R174): the body of `RL.ROLL` for each byte in order; "without its respond". -/
def execRlRollN (bytes : List Byte) (s : State) : Result :=
  withWindow s (answer (bytes.foldl State.rollByte s) noData)

/-- `RL.GET32` (R175). -/
def execRlGet32 (s : State) : Result := withWindow s (answer s (data32 (fin32 s.rs32)))

/-- `RL.GET64` (R176). -/
def execRlGet64 (s : State) : Result := withWindow s (answer s (fin64 s.rs64))

/-- `RL.RDOB32 b` (R177). -/
def execRlRdob32 (b : Byte) (s : State) : Result := withWindow s (answer s (data32 (entry s.ob32 b)))

/-- `RL.RDOB64 b` (R178). -/
def execRlRdob64 (b : Byte) (s : State) : Result := withWindow s (answer s (entry s.ob64 b))

end Sys2Proof.Machine
end

