-- ==== Sys2Proof/Machine/TableRead.lean ====
section
/-! DEFINITION. The table read commands (spec/40_crc32c_engine.md R111, spec/41_crc64xz_engine.md R131). -/

namespace Sys2Proof.Machine

/-- `TB.RD32 ti, b` (R111). -/
def execTbRd32 (ti : TabIx) (b : Byte) (s : State) : Result := answer s (data32 (t32 ti b))

/-- `TB.RD64 ti, b` (R131). -/
def execTbRd64 (ti : TabIx) (b : Byte) (s : State) : Result := answer s (t64 ti b)

end Sys2Proof.Machine
end

