-- ==== Sys2Proof/Machine/ZerosOperator.lean ====
section
/-! DEFINITION. The zeros-operator commands (spec/44_zeros.md R203 to R207). They cannot fail once the packet is legal. -/

namespace Sys2Proof.Machine

/-- `ZR.NEW zd, N` (R203). -/
def execZrNew (zd : ZReg) (count : Word64) (s : State) : Result :=
  answer (s.setZr zd ⟨zeros32 count, zeros64 count⟩) noData

/-- `ZR.MUL zd, za, zb` (R204): both products from the register values before the command. -/
def execZrMul (zd za zb : ZReg) (s : State) : Result :=
  answer (s.setZr zd ⟨mul32 (s.getZr za).p32 (s.getZr zb).p32, mul64 (s.getZr za).p64 (s.getZr zb).p64⟩) noData

/-- `ZR.APPLY za` (R205). -/
def execZrApply (za : ZReg) (s : State) : Result :=
  answer (s.setPair (mul32 s.c32 (s.getZr za).p32) (mul64 s.c64 (s.getZr za).p64)) noData

/-- `ZR.RD32 za` (R206). -/
def execZrRd32 (za : ZReg) (s : State) : Result := answer s (data32 (s.getZr za).p32)

/-- `ZR.RD64 za` (R207). -/
def execZrRd64 (za : ZReg) (s : State) : Result := answer s (s.getZr za).p64

end Sys2Proof.Machine
end

