-- ==== Sys2Proof/Machine/Dispatch.lean ====
section
/-! DEFINITION. One arm per command, each one direct call of the command's meaning (spec/30_encoding.md R70, R76). -/

namespace Sys2Proof.Machine

def exec (i : Instr) (s : State) : Host.Outcome State Fault Refusal :=
  match i with
  | .ckInit => Sys2Proof.Machine.execCkInit s
  | .ckUpd8 b => Sys2Proof.Machine.execCkUpd8 b s
  | .ckUpd64 imm => Sys2Proof.Machine.execCkUpd64 imm s
  | .ckUpdN bytes => Sys2Proof.Machine.execCkUpdN bytes s
  | .ckGet32 => Sys2Proof.Machine.execCkGet32 s
  | .ckGet64 => Sys2Proof.Machine.execCkGet64 s
  | .ckRds32 => Sys2Proof.Machine.execCkRds32 s
  | .ckRds64 => Sys2Proof.Machine.execCkRds64 s
  | .ckWrs32 v => Sys2Proof.Machine.execCkWrs32 v s
  | .ckWrs64 v => Sys2Proof.Machine.execCkWrs64 v s
  | .tbRd32 ti b => Sys2Proof.Machine.execTbRd32 ti b s
  | .tbRd64 ti b => Sys2Proof.Machine.execTbRd64 ti b s
  | .rlNew bytes => Sys2Proof.Machine.execRlNew bytes s
  | .rlRoll b => Sys2Proof.Machine.execRlRoll b s
  | .rlRollN bytes => Sys2Proof.Machine.execRlRollN bytes s
  | .rlGet32 => Sys2Proof.Machine.execRlGet32 s
  | .rlGet64 => Sys2Proof.Machine.execRlGet64 s
  | .rlRdob32 b => Sys2Proof.Machine.execRlRdob32 b s
  | .rlRdob64 b => Sys2Proof.Machine.execRlRdob64 b s
  | .zrNew zd count => Sys2Proof.Machine.execZrNew zd count s
  | .zrMul zd za zb => Sys2Proof.Machine.execZrMul zd za zb s
  | .zrApply za => Sys2Proof.Machine.execZrApply za s
  | .zrRd32 za => Sys2Proof.Machine.execZrRd32 za s
  | .zrRd64 za => Sys2Proof.Machine.execZrRd64 za s

end Sys2Proof.Machine
end

