-- ==== Sys2Proof/Machine/Step.lean ====
section
/-! DEFINITION. One step: the block takes the host's next action (spec/30_encoding.md R70, spec/70_reset_and_hazards.md R260, R263). -/

namespace Sys2Proof.Machine

/-- One step. A packet is decoded from the packet alone and executed, or answered `(E_ILLEGAL, 0)`; a reset leaves the reset state; with no
action pending "nothing in the block acts on its own" and the state stays (00_scope.md R8, R9; notes/assumptions/3.md). -/
def step (s : State) : Host.Outcome State Fault Refusal :=
  match s.inbox with
  | [] => .next s
  | .reset :: rest => .next (s.withInbox rest).afterReset
  | .packet p :: rest =>
    match decode p with
    | .ok i => exec i (s.withInbox rest)
    | .error _ => raiseError (s.withInbox rest) .eIllegal

/-- `s` with the instruction whose bits below `nbits` are `w` as the host's next packet (notes/assumptions/2.md, 11.md). -/
def State.withFetchWord (s : State) (nbits w : Nat) : State :=
  s.withInbox (.packet (Packet.ofNumber nbits w) :: s.inbox)

end Sys2Proof.Machine
end

