-- ==== Sys2Proof/Safety.lean ====
section
/-! DEFINITION. What the block promises of the states a run reaches (spec/10_state.md R33, spec/43_rolling.md R170), in the terms the
statements use. -/

namespace Sys2Proof.Machine

/-- The form of the ring while a rolling context exists: exactly `W` slots, `W >= 1`, `POS` a slot (10_state.md R26, R28). -/
def State.ringWf (s : State) : Bool :=
  !s.rvalid || (decide (1 ≤ s.w.toNat) && decide (s.w.toNat ≤ s.wmax.toNat) && decide (s.pos.toNat < s.w.toNat) &&
    decide (s.win.length = s.w.toNat))

/-- The window bytes, oldest first: `WIN[POS], ..., WIN[W-1], WIN[0], ..., WIN[POS-1]` (10_state.md R28). -/
def State.window (s : State) : List Byte := s.win.drop s.pos.toNat ++ s.win.take s.pos.toNat

/-- The out-byte tables are those of the current window size (10_state.md R33 (b)). -/
def State.TablesInv (s : State) : Prop :=
  s.rvalid = true → s.ob32 = outTable32 s.w.toNat ∧ s.ob64 = outTable64 s.w.toNat

/-- The rolling states are the raw CRC states of a fresh engine fed exactly the window (43_rolling.md R170). -/
def State.WindowCrcInv (s : State) : Prop :=
  s.rvalid = true → s.rs32 = upd32 init32 s.window ∧ s.rs64 = upd64 init64 s.window

/-- Both halves of every operator register stand for the same number of zero bytes (10_state.md R33 (c)). -/
def State.OperatorsInv (s : State) : Prop :=
  ∀ k : ZReg, ∃ count : Nat, s.getZr k = ⟨z32 count, z64 count⟩

/-- The invariant of 10_state.md R33. -/
def State.Inv (s : State) : Prop :=
  s.ringWf = true ∧ s.TablesInv ∧ s.WindowCrcInv ∧ s.OperatorsInv

end Sys2Proof.Machine
end

