-- ==== Sys2Proof/Certificates/Slice0/Obligations.lean ====
section
/-! DEFINITION. The statements for the provers, and the few notions they are stated in that are not the machine's own: polynomials over
GF(2), the packets that spec/30_encoding.md R77 calls illegal, and running `RL.ROLL` once per byte. -/

namespace Sys2Proof.Claims

open Sys2Proof.Machine

/-- `poly_n(v)`: bit `n-1-k` of `v` is the coefficient of x^k (00_scope.md R11). -/
noncomputable def polyOf {n : Nat} (v : BitVec n) : Polynomial (ZMod 2) :=
  ∑ k ∈ Finset.range n, if v.getLsbD (n - 1 - k) then Polynomial.X ^ k else 0

/-- `G_n(x) = x^n + poly_n(POLYn_R)` (00_scope.md R11). -/
noncomputable def generator {n : Nat} (poly : BitVec n) : Polynomial (ZMod 2) := Polynomial.X ^ n + polyOf poly

/-- `L`, the word count of a packet (30_encoding.md R71). -/
def wordCount (p : Packet) : Nat := 1 + p.ext.length

/-- The word count is not the format's: 1 for N, 3 for I, `2 + ceil(P[1]/4)` with `L >= 2` for P (30_encoding.md R77 (c)). -/
def WrongCount (f : Format) (p : Packet) : Prop :=
  match f with
  | .noExt => wordCount p ≠ 1
  | .imm => wordCount p ≠ 3
  | .payload => ¬ ∃ len, p.ext[0]? = some len ∧ wordCount p = 2 + (len.toNat + 3) / 4

/-- LEN is not a multiple of 4 and one of the byte lanes `LEN mod 4 .. 3` of the last word is nonzero (30_encoding.md R75, R77 (d)). -/
def NonzeroPadding (p : Packet) : Prop :=
  ∃ len last lane, p.ext[0]? = some len ∧ p.ext.getLast? = some last ∧ len.toNat % 4 ≠ 0 ∧ len.toNat % 4 ≤ lane ∧ lane < 4 ∧
    last.extractLsb' (8 * lane) 8 ≠ 0

/-- The illegal packets, cause by cause (30_encoding.md R77 (a) to (e)). -/
def IllegalPacket (p : Packet) : Prop :=
  (∀ o : Opcode, fieldOp p.head ≠ o.code) ∨
  ∃ o : Opcode, fieldOp p.head = o.code ∧
    (p.head &&& o.mask ≠ o.matchWord ∨
     WrongCount o.format p ∨
     (o.format = .payload ∧ NonzeroPadding p) ∨
     (o = .ckWrs32 ∧ ∃ hi, p.ext[1]? = some hi ∧ hi ≠ 0))

/-- The state after one `RL.ROLL` command per byte, in order; none if one of them stopped. -/
def rolls : List Byte → State → Option State
  | [], s => some s
  | b :: rest, s =>
    match exec (.rlRoll b) s with
    | .next t => rolls rest t
    | .fault _ => none
    | .refused _ => none

/-- The twelve read commands (20_memory.md R57). -/
def IsRead : Instr → Bool
  | .ckGet32 | .ckGet64 | .ckRds32 | .ckRds64 | .rlGet32 | .rlGet64 | .rlRdob32 _ | .rlRdob64 _
  | .tbRd32 _ _ | .tbRd64 _ _ | .zrRd32 _ | .zrRd64 _ => true
  | .ckInit | .ckUpd8 _ | .ckUpd64 _ | .ckUpdN _ | .ckWrs32 _ | .ckWrs64 _ | .rlNew _ | .rlRoll _ | .rlRollN _
  | .zrNew _ _ | .zrMul _ _ _ | .zrApply _ => false

/-- The commands that write the checksummer pair (10_state.md R34). -/
def WritesPair : Instr → Bool
  | .ckInit | .ckUpd8 _ | .ckUpd64 _ | .ckUpdN _ | .ckWrs32 _ | .ckWrs64 _ | .zrApply _ => true
  | .ckGet32 | .ckGet64 | .ckRds32 | .ckRds64 | .tbRd32 _ _ | .tbRd64 _ _ | .rlNew _ | .rlRoll _ | .rlRollN _
  | .rlGet32 | .rlGet64 | .rlRdob32 _ | .rlRdob64 _ | .zrNew _ _ | .zrMul _ _ _ | .zrRd32 _ | .zrRd64 _ => false

/-- The commands that write the rolling context (10_state.md R34). -/
def WritesRolling : Instr → Bool
  | .rlNew _ | .rlRoll _ | .rlRollN _ => true
  | .ckInit | .ckUpd8 _ | .ckUpd64 _ | .ckUpdN _ | .ckGet32 | .ckGet64 | .ckRds32 | .ckRds64 | .ckWrs32 _ | .ckWrs64 _
  | .tbRd32 _ _ | .tbRd64 _ _ | .rlGet32 | .rlGet64 | .rlRdob32 _ | .rlRdob64 _
  | .zrNew _ _ | .zrMul _ _ _ | .zrApply _ | .zrRd32 _ | .zrRd64 _ => false

/-- The commands that write an operator register, and which one (10_state.md R34). -/
def writesOperator : Instr → Option ZReg
  | .zrNew zd _ => some zd
  | .zrMul zd _ _ => some zd
  | .ckInit | .ckUpd8 _ | .ckUpd64 _ | .ckUpdN _ | .ckGet32 | .ckGet64 | .ckRds32 | .ckRds64 | .ckWrs32 _ | .ckWrs64 _
  | .tbRd32 _ _ | .tbRd64 _ _ | .rlNew _ | .rlRoll _ | .rlRollN _ | .rlGet32 | .rlGet64 | .rlRdob32 _ | .rlRdob64 _
  | .zrApply _ | .zrRd32 _ | .zrRd64 _ => none

/-- The rolling commands that need a window (60_exceptions.md R235). -/
def NeedsWindow : Instr → Bool
  | .rlRoll _ | .rlRollN _ | .rlGet32 | .rlGet64 | .rlRdob32 _ | .rlRdob64 _ => true
  | .ckInit | .ckUpd8 _ | .ckUpd64 _ | .ckUpdN _ | .ckGet32 | .ckGet64 | .ckRds32 | .ckRds64 | .ckWrs32 _ | .ckWrs64 _
  | .tbRd32 _ _ | .tbRd64 _ _ | .rlNew _ | .zrNew _ _ | .zrMul _ _ _ | .zrApply _ | .zrRd32 _ | .zrRd64 _ => false

/-- The rolling commands, `RL.NEW` among them. -/
def IsRolling (i : Instr) : Bool := NeedsWindow i || WritesRolling i

end Sys2Proof.Claims

open Sys2Proof Sys2Proof.Machine Sys2Proof.Claims

/-! ### Encoding -/

/-- Decoding an encoded well-formed command gives it back, every operand at every value the encoding admits (30_encoding.md sections 2, 3). -/
def Obligations.DecodeOfEncode : Prop :=
  ∀ i : Instr, i.wf = true → decode (encode i) = .ok i

/-- A legal packet is the only packet of its command: what decodes is well-formed and encodes back to the same words ("required-zero padding
makes the encoding of a payload unique", 92_eei_decisions.md D6). -/
def Obligations.EncodeOfDecode : Prop :=
  ∀ (p : Packet) (i : Instr), decode p = .ok i → i.wf = true ∧ encode i = p

/-- A header selects at most one row of the opcode map, and decoding a legal packet gives a command of the row it selects (30_encoding.md
section 3: the rows are pairwise disjoint). -/
def Obligations.HeaderSelectsOneRow : Prop :=
  (∀ (o o' : Opcode) (h : Word), h &&& o.mask = o.matchWord → h &&& o'.mask = o'.matchWord → o = o') ∧
  (∀ (p : Packet) (i : Instr), decode p = .ok i → p.head &&& i.opcode.mask = i.opcode.matchWord)

/-- A few packets written out word by word in 95_test_vectors.md section 2.6 decode to the commands they stand for. -/
def Obligations.SpecPacketsDecode : Prop :=
  decode ⟨0x010000A5, []⟩ = .ok (.ckUpd8 0xA5) ∧
  decode ⟨0x02000000, [0x04030201, 0x08070605]⟩ = .ok (.ckUpd64 0x0807060504030201) ∧
  decode ⟨0x03000000, [5, 0x64636261, 0x00000065]⟩ = .ok (.ckUpdN [0x61, 0x62, 0x63, 0x64, 0x65]) ∧
  decode ⟨0x08000000, [0xDEADBEEF, 0]⟩ = .ok (.ckWrs32 0xDEADBEEF) ∧
  decode ⟨0x100005A5, []⟩ = .ok (.tbRd32 5 0xA5) ∧
  decode ⟨0x30200000, [0x000003E8, 0]⟩ = .ok (.zrNew 2 1000) ∧
  decode ⟨0x31312000, []⟩ = .ok (.zrMul 3 1 2)

/-- Format I: three words, the immediate is `{P[2], P[1]}`, its meaning per command, and the high word of `CK.WRS32` must be 0
(30_encoding.md R74). -/
def Obligations.ImmediateLowWordFirst : Prop :=
  ∀ (lo hi : Word) (zd : ZReg),
    (∀ (h : Word) (ext : List Word), h ∈ ([0x02000000, 0x08000000, 0x09000000, 0x30000000 ||| (BitVec.ofNat 32 zd.val <<< 20)] : List Word) →
      ext.length ≠ 2 → decode ⟨h, ext⟩ = .error .wordCount) ∧
    decode ⟨0x02000000, [lo, hi]⟩ = .ok (.ckUpd64 (hi ++ lo)) ∧
    (∀ k < 8, (messageBytes (hi ++ lo))[k]? = some ((hi ++ lo).extractLsb' (8 * k) 8)) ∧
    decode ⟨0x08000000, [lo, 0]⟩ = .ok (.ckWrs32 lo) ∧
    (hi ≠ 0 → decode ⟨0x08000000, [lo, hi]⟩ = .error .highWord) ∧
    decode ⟨0x09000000, [lo, hi]⟩ = .ok (.ckWrs64 (hi ++ lo)) ∧
    decode ⟨0x30000000 ||| (BitVec.ofNat 32 zd.val <<< 20), [lo, hi]⟩ = .ok (.zrNew zd (hi ++ lo))

/-- Format P: `LEN = P[1]`, `L = 2 + ceil(LEN/4)`, and byte `k` of the payload is lane `k mod 4` of word `P[2 + floor(k/4)]`, for each of the
three payload commands; the padding lanes are 0 (30_encoding.md R75). -/
def Obligations.PayloadByteLanes : Prop :=
  ∀ (h len : Word) (ws : List Word) (i : Instr), (h = 0x03000000 ∨ h = 0x20000000 ∨ h = 0x22000000) →
    decode ⟨h, []⟩ = .error .wordCount ∧
    (decode ⟨h, len :: ws⟩ = .ok i →
    i.payload.length = len.toNat ∧ ws.length = (len.toNat + 3) / 4 ∧
    (∀ k < len.toNat, i.payload[k]? = ws[k / 4]?.map fun v => v.extractLsb' (8 * (k % 4)) 8) ∧
    (∀ last lane, ws.getLast? = some last → len.toNat % 4 ≠ 0 → len.toNat % 4 ≤ lane → lane < 4 → last.extractLsb' (8 * lane) 8 = 0))

/-! ### The step -/

/-- The command step: a packet is decoded from the packet alone; a legal one is executed, an illegal one is answered `(E_ILLEGAL, 0)` with the
state unchanged; the step moves past the packet (30_encoding.md R70). -/
def Obligations.StepRunsDecodedCommand : Prop :=
  ∀ (s : State) (p : Packet) (rest : List HostAction), s.inbox = .packet p :: rest →
    (∀ i, decode p = .ok i → step s = exec i { s with inbox := rest }) ∧
    (∀ e, decode p = .error e →
      step s = .next { s with inbox := rest, responses := s.responses ++ [⟨.eIllegal, 0⟩] })

/-- The illegal packets are exactly those of the five causes, whatever the state; such a packet has no effect and is answered
`(E_ILLEGAL, 0)`, and every other packet is one of the 24 commands and is executed (30_encoding.md R77). -/
def Obligations.IllegalPacketsHaveNoEffect : Prop :=
  ∀ (s : State) (p : Packet) (rest : List HostAction), s.inbox = .packet p :: rest →
    (IllegalPacket p → step s = .next { s with inbox := rest, responses := s.responses ++ [⟨.eIllegal, 0⟩] }) ∧
    (¬ IllegalPacket p → ∃ i, decode p = .ok i ∧ step s = exec i { s with inbox := rest })

/-- Every packet gives exactly one response and one successor state; an error changes nothing but the response list, answers data 0, and
the host's position moves past the packet (60_exceptions.md R232; WMAX is a parameter, so no step changes it). -/
def Obligations.OneResponsePerPacket : Prop :=
  ∀ (s : State) (p : Packet) (rest : List HostAction), s.inbox = .packet p :: rest →
    ∃ (t : State) (r : Response), step s = .next t ∧ t.inbox = rest ∧ t.responses = s.responses ++ [r] ∧ t.wmax = s.wmax ∧
      (r.status ≠ .ok → t = { s with inbox := rest, responses := s.responses ++ [⟨r.status, 0⟩] })

/-- Nothing happens between commands: with no action pending a step leaves the state as it is. That such a step answers the same state is the
model's choice (notes/assumptions/3.md). -/
def Obligations.IdleStepKeepsState : Prop :=
  ∀ s : State, s.inbox = [] → step s = .next s

/-- Reset between commands leaves the reset state for the same WMAX and the same pending actions, whatever the state was. That the response
list is emptied is the model's reading (notes/assumptions/8.md). -/
def Obligations.ResetActionGivesResetState : Prop :=
  ∀ (s : State) (rest : List HostAction), s.inbox = .reset :: rest →
    step s = .next { State.reset with wmax := s.wmax, inbox := rest }

/-- The values the spec gives the state after reset (10_state.md R32): the checksummer pair, the operator registers, RVALID, an empty response
stream (70_reset_and_hazards.md R261), and the table ROMs at their constant contents, table 0 by reduction and each next table from the one before
it (40_crc32c_engine.md R101, R102; 41_crc64xz_engine.md R121, R122). -/
def Obligations.ResetValues : Prop :=
  State.reset.c32 = 0xFFFFFFFF ∧ State.reset.c64 = 0xFFFFFFFFFFFFFFFF ∧
  (∀ k : ZReg, State.reset.getZr k = ⟨0x80000000, 0x8000000000000000⟩) ∧
  State.reset.rvalid = false ∧ State.reset.responses = [] ∧
  (∀ b : Byte,
    t32 0 b = (fun r : BitVec 32 => (r >>> 1) ^^^ (if r[0] then 0x82F63B78 else 0))^[8] (b.setWidth 32) ∧
    t64 0 b = (fun r : BitVec 64 => (r >>> 1) ^^^ (if r[0] then 0xC96C5795D7870F42 else 0))^[8] (b.setWidth 64)) ∧
  (∀ (i : Fin 7) (b : Byte),
    t32 i.succ b = (t32 i.castSucc b >>> 8) ^^^ t32 0 ((t32 i.castSucc b).extractLsb' 0 8) ∧
    t64 i.succ b = (t64 i.castSucc b >>> 8) ^^^ t64 0 ((t64 i.castSucc b).extractLsb' 0 8))

/-! ### Invariants -/

/-- The invariant of 10_state.md R33 holds at reset. -/
def Obligations.InvariantAtReset : Prop := State.reset.Inv

/-- Every step keeps the form of the ring: exactly W slots, `1 <= W <= WMAX`, `0 <= POS < W` while RVALID = 1 (10_state.md section 7). -/
def Obligations.StepKeepsRing : Prop :=
  ∀ s t : State, s.ringWf = true → step s = .next t → t.ringWf = true

/-- Every step keeps the out-byte tables those of the current window size (10_state.md section 7). -/
def Obligations.StepKeepsOutByteTables : Prop :=
  ∀ s t : State, s.TablesInv → step s = .next t → t.TablesInv

/-- Rolling equals windowed one-shot at all times: every step keeps RS32 and RS64 the raw CRC states of the current window contents
(43_rolling.md R170). -/
def Obligations.StepKeepsWindowCrc : Prop :=
  ∀ s t : State, s.ringWf = true → s.TablesInv → s.WindowCrcInv → step s = .next t → t.WindowCrcInv

/-- Every step keeps both halves of every operator register the operators of one number of zero bytes (10_state.md section 7). -/
def Obligations.StepKeepsOperators : Prop :=
  ∀ s t : State, s.OperatorsInv → step s = .next t → t.OperatorsInv

/-! ### Arithmetic -/

/-- `mulx_n`: the shift and the conditional XOR, which is multiplication by x modulo the generator; `reduce_n`: `mulx_n` eight times on the
zero-extended byte, which is the byte times x^8 modulo the generator (00_scope.md R12). -/
def Obligations.MulxIsTimesX : Prop :=
  (∀ v : BitVec 32, mulx poly32 v = (v >>> 1) ^^^ (if v[0] then 0x82F63B78 else 0)) ∧
  (∀ v : BitVec 64, mulx poly64 v = (v >>> 1) ^^^ (if v[0] then 0xC96C5795D7870F42 else 0)) ∧
  (∀ b : Byte, reduce poly32 b = (mulx poly32)^[8] (b.setWidth 32) ∧ reduce poly64 b = (mulx poly64)^[8] (b.setWidth 64)) ∧
  (∀ v : BitVec 32, polyOf (mulx poly32 v) = (Polynomial.X * polyOf v) %ₘ generator poly32) ∧
  (∀ v : BitVec 64, polyOf (mulx poly64 v) = (Polynomial.X * polyOf v) %ₘ generator poly64) ∧
  (∀ b : Byte, polyOf (reduce poly32 b) = (Polynomial.X ^ 8 * polyOf (b.setWidth 32)) %ₘ generator poly32 ∧
    polyOf (reduce poly64 b) = (Polynomial.X ^ 8 * polyOf (b.setWidth 64)) %ₘ generator poly64)

/-- `mul_n` is the product of the polynomials modulo the generator (00_scope.md R13). -/
def Obligations.MulIsProductModGenerator : Prop :=
  (∀ a b : BitVec 32, polyOf (mul32 a b) = (polyOf a * polyOf b) %ₘ generator poly32) ∧
  (∀ a b : BitVec 64, polyOf (mul64 a b) = (polyOf a * polyOf b) %ₘ generator poly64)

/-- `mul_n` is commutative, associative, distributes over XOR, has `ONE_n` as its identity and 0 as its zero (00_scope.md section 5, laws marked
derived). -/
def Obligations.MulLaws : Prop :=
  (∀ a b c : BitVec 32, mul32 a b = mul32 b a ∧ mul32 (mul32 a b) c = mul32 a (mul32 b c) ∧
    mul32 (a ^^^ b) c = mul32 a c ^^^ mul32 b c ∧ mul32 a (b ^^^ c) = mul32 a b ^^^ mul32 a c ∧
    mul32 0x80000000 a = a ∧ mul32 0 a = 0) ∧
  (∀ a b c : BitVec 64, mul64 a b = mul64 b a ∧ mul64 (mul64 a b) c = mul64 a (mul64 b c) ∧
    mul64 (a ^^^ b) c = mul64 a c ^^^ mul64 b c ∧ mul64 a (b ^^^ c) = mul64 a b ^^^ mul64 a c ∧
    mul64 0x8000000000000000 a = a ∧ mul64 0 a = 0)

/-- The byte step is multiplication of the state, with the byte XORed in, by x^8 (40 and 41 section 3, closed forms marked derived). -/
def Obligations.ByteStepIsTimesX8 : Prop :=
  (∀ (s : BitVec 32) (b : Byte), step32 s b = mul32 (s ^^^ b.setWidth 32) 0x00800000) ∧
  (∀ (s : BitVec 64) (b : Byte), step64 s b = mul64 (s ^^^ b.setWidth 64) 0x0080000000000000)

/-- `T_n[i][b]` is the byte times x^(8(i+1)), and every table is linear in its index (40 and 41 section 2, closed forms marked derived). -/
def Obligations.TableClosedForms : Prop :=
  ∀ (i : Fin 8) (a b : Byte),
    t32 i b = mul32 (b.setWidth 32) (z32 (i.val + 1)) ∧ t32 i (a ^^^ b) = t32 i a ^^^ t32 i b ∧
    t64 i b = mul64 (b.setWidth 64) (z64 (i.val + 1)) ∧ t64 i (a ^^^ b) = t64 i a ^^^ t64 i b

/-- The CRC-32C slice step is eight byte steps (40_crc32c_engine.md R106). -/
def Obligations.SliceIsEightByteSteps32 : Prop :=
  ∀ (s : BitVec 32) (d : List Byte), d.length = 8 → slice32 s d = d.foldl step32 s

/-- The CRC-64/XZ slice step is eight byte steps (41_crc64xz_engine.md section 4, a law marked derived). -/
def Obligations.SliceIsEightByteSteps64 : Prop :=
  ∀ (s : BitVec 64) (d : List Byte), d.length = 8 → slice64 s d = d.foldl step64 s

/-- Update is linear over XOR, for messages of equal length (40 and 41 section 5, laws marked derived). -/
def Obligations.UpdateIsLinear : Prop :=
  ∀ m m' : List Byte, m.length = m'.length →
    (∀ s s' : BitVec 32, upd32 (s ^^^ s') (List.zipWith (· ^^^ ·) m m') = upd32 s m ^^^ upd32 s' m') ∧
    (∀ s s' : BitVec 64, upd64 (s ^^^ s') (List.zipWith (· ^^^ ·) m m') = upd64 s m ^^^ upd64 s' m')

/-- A multi-byte update with greedy slice steps gives what byte steps give, and a split message gives what the whole gives (40 R107, the
chunking law of 41 section 5). -/
def Obligations.FeedIsFoldOfByteSteps : Prop :=
  ∀ m1 m2 : List Byte,
    (∀ s : BitVec 32, feed32 s (m1 ++ m2) = (m1 ++ m2).foldl step32 s ∧ feed32 s (m1 ++ m2) = feed32 (feed32 s m1) m2) ∧
    (∀ s : BitVec 64, feed64 s (m1 ++ m2) = (m1 ++ m2).foldl step64 s ∧ feed64 s (m1 ++ m2) = feed64 (feed64 s m1) m2)

/-- `Z_n(N)` is the polynomial x^(8N) modulo the generator; `Z_n(0) = ONE_n`, `Z_n(1) = X8_n`, `Z_n(a+b)` is the product (44_zeros.md R200). -/
def Obligations.OperatorIsPowerOfX : Prop :=
  (∀ count : Nat, polyOf (z32 count) = (Polynomial.X ^ (8 * count)) %ₘ generator poly32 ∧
    polyOf (z64 count) = (Polynomial.X ^ (8 * count)) %ₘ generator poly64) ∧
  z32 0 = 0x80000000 ∧ z32 1 = 0x00800000 ∧ z64 0 = 0x8000000000000000 ∧ z64 1 = 0x0080000000000000 ∧
  (∀ a b : Nat, z32 (a + b) = mul32 (z32 a) (z32 b) ∧ z64 (a + b) = mul64 (z64 a) (z64 b))

/-- Square-and-multiply returns the operator: `zeros_n(N) = Z_n(N)` for every 64-bit N (44_zeros.md R201). -/
def Obligations.ZerosReturnsOperator : Prop :=
  ∀ count : Word64, zeros32 count = z32 count.toNat ∧ zeros64 count = z64 count.toNat

/-- Multiplying a raw state by the operator feeds that many zero bytes (44_zeros.md R202). -/
def Obligations.ApplyFeedsZeroBytes : Prop :=
  ∀ count : Nat,
    (∀ s : BitVec 32, upd32 s (List.replicate count 0) = mul32 s (z32 count)) ∧
    (∀ s : BitVec 64, upd64 s (List.replicate count 0) = mul64 s (z64 count))

/-- The out-byte tables for window size W: the literal table XOR the constant K(W) (43_rolling.md section 2, the amended definition of
90_conflicts.md C1). -/
def Obligations.OutByteTableRule : Prop :=
  ∀ (w : Nat) (b : Byte), 1 ≤ w → w < 2 ^ 64 →
    entry (outTable32 w) b =
      mul32 (t32 0 b) (z32 (w - 1)) ^^^ (mul32 0xFFFFFFFF (z32 w) ^^^ mul32 0xFFFFFFFF (z32 (w - 1))) ∧
    entry (outTable64 w) b =
      mul64 (t64 0 b) (z64 (w - 1)) ^^^ (mul64 0xFFFFFFFFFFFFFFFF (z64 w) ^^^ mul64 0xFFFFFFFFFFFFFFFF (z64 (w - 1)))

/-- An out-byte entry is the state after b and W-1 zero bytes XOR the state after W-1 zero bytes, both from the initial state (43_rolling.md
section 2, the equivalent form marked derived). -/
def Obligations.OutByteAsMessages : Prop :=
  ∀ (w : Nat) (b : Byte), w + 1 < 2 ^ 64 →
    entry (outTable32 (w + 1)) b = upd32 init32 (b :: List.replicate w 0) ^^^ upd32 init32 (List.replicate w 0) ∧
    entry (outTable64 (w + 1)) b = upd64 init64 (b :: List.replicate w 0) ^^^ upd64 init64 (List.replicate w 0)

/-! ### The checksummer commands -/

/-- `CK.INIT`: encoding, effect, everything else unchanged, twice is the same as once (42_checksummer.md R141). -/
def Obligations.CkInitEffect : Prop :=
  decode ⟨0x00000000, []⟩ = .ok .ckInit ∧
  (∀ s : State, exec .ckInit s =
    .next { s with c32 := 0xFFFFFFFF, c64 := 0xFFFFFFFFFFFFFFFF, responses := s.responses ++ [⟨.ok, 0⟩] })

/-- `CK.UPD8 b`: encoding, effect by the byte step on both registers, everything else unchanged (42_checksummer.md R142). -/
def Obligations.CkUpd8Effect : Prop :=
  ∀ (s : State) (b : Byte),
    decode ⟨0x01000000 ||| b.setWidth 32, []⟩ = .ok (.ckUpd8 b) ∧
    exec (.ckUpd8 b) s =
      .next { s with c32 := step32 s.c32 b, c64 := step64 s.c64 b, responses := s.responses ++ [⟨.ok, 0⟩] }

/-- `CK.UPD64 imm64`: encoding; the slice step on both registers with message byte k = `imm64[8k+7:8k]`, equal in effect to eight byte steps in
that order; everything else unchanged (42_checksummer.md R143). -/
def Obligations.CkUpd64Effect : Prop :=
  ∀ (s : State) (imm : Word64) (d : List Byte), d = (List.range 8).map (fun k => imm.extractLsb' (8 * k) 8) →
    decode ⟨0x02000000, [imm.extractLsb' 0 32, imm.extractLsb' 32 32]⟩ = .ok (.ckUpd64 imm) ∧
    le64 d = imm ∧ slice32 s.c32 d = d.foldl step32 s.c32 ∧ slice64 s.c64 d = d.foldl step64 s.c64 ∧
    exec (.ckUpd64 imm) s =
      .next { s with c32 := slice32 s.c32 d, c64 := slice64 s.c64 d, responses := s.responses ++ [⟨.ok, 0⟩] }

/-- `CK.UPDN payload`: encoding; both registers updated by all the bytes in order, an empty payload changing nothing; everything else unchanged
(42_checksummer.md R144). -/
def Obligations.CkUpdNEffect : Prop :=
  ∀ (s : State) (bytes : List Byte),
    (bytes.length < 2 ^ 32 → decode ⟨0x03000000, encodePayload bytes⟩ = .ok (.ckUpdN bytes)) ∧
    exec (.ckUpdN bytes) s =
      .next { s with c32 := upd32 s.c32 bytes, c64 := upd64 s.c64 bytes, responses := s.responses ++ [⟨.ok, 0⟩] }

/-- `CK.GET32`, `CK.GET64`, `CK.RDS32`, `CK.RDS64`: encodings, answers, nothing else changed (42_checksummer.md R145 to R148). -/
def Obligations.CkReadOut : Prop :=
  decode ⟨0x04000000, []⟩ = .ok .ckGet32 ∧ decode ⟨0x05000000, []⟩ = .ok .ckGet64 ∧
  decode ⟨0x06000000, []⟩ = .ok .ckRds32 ∧ decode ⟨0x07000000, []⟩ = .ok .ckRds64 ∧
  ∀ s : State,
    exec .ckGet32 s = .next { s with responses := s.responses ++ [⟨.ok, (s.c32 ^^^ 0xFFFFFFFF).setWidth 64⟩] } ∧
    exec .ckGet64 s = .next { s with responses := s.responses ++ [⟨.ok, s.c64 ^^^ 0xFFFFFFFFFFFFFFFF⟩] } ∧
    exec .ckRds32 s = .next { s with responses := s.responses ++ [⟨.ok, s.c32.setWidth 64⟩] } ∧
    exec .ckRds64 s = .next { s with responses := s.responses ++ [⟨.ok, s.c64⟩] }

/-- `CK.WRS32`, `CK.WRS64`: encodings, the one register written, the other and everything else unchanged; a nonzero high word of `CK.WRS32` is
illegal (42_checksummer.md R149, R150). -/
def Obligations.CkStateWrite : Prop :=
  (∀ (lo hi : Word), decode ⟨0x08000000, [lo, 0]⟩ = .ok (.ckWrs32 lo) ∧
    (hi ≠ 0 → decode ⟨0x08000000, [lo, hi]⟩ = .error .highWord) ∧
    decode ⟨0x09000000, [lo, hi]⟩ = .ok (.ckWrs64 (hi ++ lo))) ∧
  ∀ (s : State) (v : Word) (v' : Word64),
    exec (.ckWrs32 v) s = .next { s with c32 := v, responses := s.responses ++ [⟨.ok, 0⟩] } ∧
    exec (.ckWrs64 v') s = .next { s with c64 := v', responses := s.responses ++ [⟨.ok, 0⟩] }

/-- One-shot equals incremental: two chunks leave the same pair as the whole, a one-byte chunk may be `CK.UPD8` and an eight-byte chunk
`CK.UPD64` (42_checksummer.md section 6, a law marked derived). -/
def Obligations.ChunkedUpdateEqualsWhole : Prop :=
  ∀ (s t u v : State) (m1 m2 : List Byte) (b : Byte) (imm : Word64),
    exec (.ckUpdN m1) s = .next t → exec (.ckUpdN m2) t = .next u → exec (.ckUpdN (m1 ++ m2)) s = .next v →
    v.c32 = u.c32 ∧ v.c64 = u.c64 ∧ exec (.ckUpd8 b) s = exec (.ckUpdN [b]) s ∧
    exec (.ckUpd64 imm) s = exec (.ckUpdN (messageBytes imm)) s

/-- The sequence `CK.INIT; CK.UPDN bytes; CK.GET32; CK.GET64` answers the pair of one-shot checksums, from every state (42_checksummer.md
section 6; the expansion of `CHECKSUM` in 30_encoding.md section 6). -/
def Obligations.ChecksumSequence : Prop :=
  ∀ (s : State) (bytes : List Byte), ∃ t0 t1 t2 t3 : State,
    exec .ckInit s = .next t0 ∧ exec (.ckUpdN bytes) t0 = .next t1 ∧ exec .ckGet32 t1 = .next t2 ∧ exec .ckGet64 t2 = .next t3 ∧
    t3.responses = s.responses ++ [⟨.ok, 0⟩, ⟨.ok, 0⟩, ⟨.ok, (crc32c bytes).setWidth 64⟩, ⟨.ok, crc64xz bytes⟩]

/-! ### The table read commands -/

/-- `TB.RD32`, `TB.RD64`: encodings, the entry answered, 0 for b = 0, nothing else changed (40_crc32c_engine.md R111, 41_crc64xz_engine.md R131). -/
def Obligations.TableRead : Prop :=
  ∀ (s : State) (ti : TabIx) (b : Byte),
    decode ⟨0x10000000 ||| (BitVec.ofNat 32 ti.val <<< 8) ||| b.setWidth 32, []⟩ = .ok (.tbRd32 ti b) ∧
    decode ⟨0x11000000 ||| (BitVec.ofNat 32 ti.val <<< 8) ||| b.setWidth 32, []⟩ = .ok (.tbRd64 ti b) ∧
    exec (.tbRd32 ti b) s = .next { s with responses := s.responses ++ [⟨.ok, (t32 ti b).setWidth 64⟩] } ∧
    exec (.tbRd64 ti b) s = .next { s with responses := s.responses ++ [⟨.ok, t64 ti b⟩] } ∧
    t32 ti 0 = 0 ∧ t64 ti 0 = 0

/-! ### The rolling commands -/

/-- `RL.NEW payload`: encoding; an empty window and one longer than WMAX are refused with nothing written; else the whole rolling context is built
and everything else is unchanged (43_rolling.md R172). -/
def Obligations.RlNewEffect : Prop :=
  ∀ (s : State) (bytes : List Byte),
    (bytes.length < 2 ^ 32 → decode ⟨0x20000000, encodePayload bytes⟩ = .ok (.rlNew bytes)) ∧
    (bytes.length = 0 → exec (.rlNew bytes) s = .next { s with responses := s.responses ++ [⟨.eInvalidWindow, 0⟩] }) ∧
    (s.wmax.toNat < bytes.length → exec (.rlNew bytes) s = .next { s with responses := s.responses ++ [⟨.eCapacity, 0⟩] }) ∧
    (1 ≤ bytes.length → bytes.length ≤ s.wmax.toNat →
      exec (.rlNew bytes) s =
        .next { s with
          w := BitVec.ofNat 32 bytes.length, win := bytes, pos := 0,
          rs32 := upd32 init32 bytes, rs64 := upd64 init64 bytes,
          ob32 := outTable32 bytes.length, ob64 := outTable64 bytes.length,
          rvalid := true, responses := s.responses ++ [⟨.ok, 0⟩] })

/-- `RL.ROLL b`: encoding; without a window refused; else, with `out` the byte at the read position, both states compensated and stepped, the
slot overwritten, the position advanced modulo W, everything else unchanged (43_rolling.md R173). -/
def Obligations.RlRollEffect : Prop :=
  ∀ (s : State) (b : Byte),
    decode ⟨0x21000000 ||| b.setWidth 32, []⟩ = .ok (.rlRoll b) ∧
    (s.rvalid = false → exec (.rlRoll b) s = .next { s with responses := s.responses ++ [⟨.eNoWindow, 0⟩] }) ∧
    (∀ out : Byte, s.rvalid = true → s.win[s.pos.toNat]? = some out →
      exec (.rlRoll b) s =
        .next { s with
          rs32 := step32 (s.rs32 ^^^ s.ob32[out.toNat]) b, rs64 := step64 (s.rs64 ^^^ s.ob64[out.toNat]) b,
          win := s.win.set s.pos.toNat b, pos := BitVec.ofNat 32 ((s.pos.toNat + 1) % s.w.toNat),
          responses := s.responses ++ [⟨.ok, 0⟩] })

/-- `RL.ROLLN payload`: encoding; without a window refused, also when empty; else the state is that of one `RL.ROLL` per byte, with one response
(43_rolling.md R174). -/
def Obligations.RlRollNEffect : Prop :=
  ∀ (s : State) (bytes : List Byte),
    (bytes.length < 2 ^ 32 → decode ⟨0x22000000, encodePayload bytes⟩ = .ok (.rlRollN bytes)) ∧
    (s.rvalid = false → exec (.rlRollN bytes) s = .next { s with responses := s.responses ++ [⟨.eNoWindow, 0⟩] }) ∧
    (s.rvalid = true → ∃ t : State, rolls bytes s = some t ∧
      exec (.rlRollN bytes) s = .next { t with responses := s.responses ++ [⟨.ok, 0⟩] })

/-- `RL.GET32`, `RL.GET64`, `RL.RDOB32`, `RL.RDOB64`: encodings, answers with a window, nothing else changed (43_rolling.md R176 to R178 and the
same for the first; that the answer is the window's checksum is another statement). -/
def Obligations.RlReadOut : Prop :=
  ∀ (s : State) (b : Byte),
    decode ⟨0x23000000, []⟩ = .ok .rlGet32 ∧ decode ⟨0x24000000, []⟩ = .ok .rlGet64 ∧
    decode ⟨0x25000000 ||| b.setWidth 32, []⟩ = .ok (.rlRdob32 b) ∧
    decode ⟨0x26000000 ||| b.setWidth 32, []⟩ = .ok (.rlRdob64 b) ∧
    (s.rvalid = true →
      exec .rlGet32 s = .next { s with responses := s.responses ++ [⟨.ok, (s.rs32 ^^^ 0xFFFFFFFF).setWidth 64⟩] } ∧
      exec .rlGet64 s = .next { s with responses := s.responses ++ [⟨.ok, s.rs64 ^^^ 0xFFFFFFFFFFFFFFFF⟩] } ∧
      exec (.rlRdob32 b) s = .next { s with responses := s.responses ++ [⟨.ok, (s.ob32[b.toNat]).setWidth 64⟩] } ∧
      exec (.rlRdob64 b) s = .next { s with responses := s.responses ++ [⟨.ok, s.ob64[b.toNat]⟩] }) ∧
    (s.rvalid = false →
      exec .rlGet32 s = .next { s with responses := s.responses ++ [⟨.eNoWindow, 0⟩] } ∧
      exec .rlGet64 s = .next { s with responses := s.responses ++ [⟨.eNoWindow, 0⟩] } ∧
      exec (.rlRdob32 b) s = .next { s with responses := s.responses ++ [⟨.eNoWindow, 0⟩] } ∧
      exec (.rlRdob64 b) s = .next { s with responses := s.responses ++ [⟨.eNoWindow, 0⟩] })

/-- `E_NO_WINDOW` is answered by the six commands exactly while RVALID = 0, by no other command, and once RVALID = 1 no packet clears it or is
answered so (60_exceptions.md R235). -/
def Obligations.NoWindowExactlyWhileNotValid : Prop :=
  (∀ (s : State) (i : Instr), s.rvalid = false → NeedsWindow i = true →
    exec i s = .next { s with responses := s.responses ++ [⟨.eNoWindow, 0⟩] }) ∧
  (∀ (s t : State) (i : Instr) (r : Response), NeedsWindow i = false → exec i s = .next t → t.responses = s.responses ++ [r] →
    r.status ≠ .eNoWindow) ∧
  (∀ (s t : State) (p : Packet) (rest : List HostAction), s.inbox = .packet p :: rest → s.rvalid = true → step s = .next t →
    t.rvalid = true ∧ ∀ r : Response, t.responses = s.responses ++ [r] → r.status ≠ .eNoWindow)

/-- The rolling read-outs answer the one-shot checksums of the current window (43_rolling.md sections 1 and 5). -/
def Obligations.RollingAnswersWindowChecksum : Prop :=
  ∀ s : State, s.Inv → s.rvalid = true →
    exec .rlGet32 s = .next { s with responses := s.responses ++ [⟨.ok, (crc32c s.window).setWidth 64⟩] } ∧
    exec .rlGet64 s = .next { s with responses := s.responses ++ [⟨.ok, crc64xz s.window⟩] }

/-- After a successful `RL.NEW bytes` the window is `bytes`; after rolling bytes in, it is the last W bytes of the old window followed by them
(10_state.md section 5, 43_rolling.md section 4). -/
def Obligations.WindowAfterRolling : Prop :=
  (∀ (s t : State) (bytes : List Byte), 1 ≤ bytes.length → bytes.length ≤ s.wmax.toNat →
    exec (.rlNew bytes) s = .next t → t.window = bytes) ∧
  (∀ (s t : State) (bytes : List Byte), s.ringWf = true → s.rvalid = true → exec (.rlRollN bytes) s = .next t →
    t.window = (s.window ++ bytes).drop bytes.length)

/-! ### The zeros-operator commands -/

/-- `ZR.NEW zd, N`: encoding; both halves of `ZR[zd]` become the operators for N zero bytes, everything else unchanged (44_zeros.md R203). -/
def Obligations.ZrNewEffect : Prop :=
  ∀ (s : State) (zd : ZReg) (count : Word64),
    decode ⟨0x30000000 ||| (BitVec.ofNat 32 zd.val <<< 20), [count.extractLsb' 0 32, count.extractLsb' 32 32]⟩ =
      .ok (.zrNew zd count) ∧
    exec (.zrNew zd count) s =
      .next { s with zr := s.zr.set zd.val ⟨z32 count.toNat, z64 count.toNat⟩, responses := s.responses ++ [⟨.ok, 0⟩] }

/-- `ZR.MUL zd, za, zb`: encoding; `ZR[zd]` becomes the product of the operators read before the write, whatever registers coincide, everything
else unchanged; operators for `na` and `nb` zero bytes give the one for `na + nb` (44_zeros.md R204). -/
def Obligations.ZrMulEffect : Prop :=
  ∀ (s : State) (zd za zb : ZReg),
    decode ⟨0x31000000 ||| (BitVec.ofNat 32 zd.val <<< 20) ||| (BitVec.ofNat 32 za.val <<< 16) ||| (BitVec.ofNat 32 zb.val <<< 12), []⟩ =
      .ok (.zrMul zd za zb) ∧
    exec (.zrMul zd za zb) s =
      .next { s with
        zr := s.zr.set zd.val ⟨mul32 s.zr[za.val].p32 s.zr[zb.val].p32, mul64 s.zr[za.val].p64 s.zr[zb.val].p64⟩,
        responses := s.responses ++ [⟨.ok, 0⟩] } ∧
    (∀ na nb : Nat, s.zr[za.val] = ⟨z32 na, z64 na⟩ → s.zr[zb.val] = ⟨z32 nb, z64 nb⟩ →
      exec (.zrMul zd za zb) s =
        .next { s with zr := s.zr.set zd.val ⟨z32 (na + nb), z64 (na + nb)⟩, responses := s.responses ++ [⟨.ok, 0⟩] })

/-- `ZR.APPLY za`: encoding; both checksummer registers are multiplied by the operator, everything else unchanged; the operator for N advances the
pair as N zero bytes do, and the identity leaves it (44_zeros.md R205). -/
def Obligations.ZrApplyEffect : Prop :=
  ∀ (s : State) (za : ZReg),
    decode ⟨0x32000000 ||| (BitVec.ofNat 32 za.val <<< 16), []⟩ = .ok (.zrApply za) ∧
    exec (.zrApply za) s =
      .next { s with
        c32 := mul32 s.c32 s.zr[za.val].p32, c64 := mul64 s.c64 s.zr[za.val].p64, responses := s.responses ++ [⟨.ok, 0⟩] } ∧
    (∀ count : Nat, s.zr[za.val] = ⟨z32 count, z64 count⟩ →
      exec (.zrApply za) s =
        .next { s with
          c32 := upd32 s.c32 (List.replicate count 0), c64 := upd64 s.c64 (List.replicate count 0),
          responses := s.responses ++ [⟨.ok, 0⟩] }) ∧
    (s.zr[za.val] = ⟨0x80000000, 0x8000000000000000⟩ →
      exec (.zrApply za) s = .next { s with responses := s.responses ++ [⟨.ok, 0⟩] })

/-- `ZR.RD32`, `ZR.RD64`: encodings, answers, nothing else changed (44_zeros.md R206, R207). -/
def Obligations.ZrReadOut : Prop :=
  ∀ (s : State) (za : ZReg),
    decode ⟨0x33000000 ||| (BitVec.ofNat 32 za.val <<< 16), []⟩ = .ok (.zrRd32 za) ∧
    decode ⟨0x34000000 ||| (BitVec.ofNat 32 za.val <<< 16), []⟩ = .ok (.zrRd64 za) ∧
    exec (.zrRd32 za) s = .next { s with responses := s.responses ++ [⟨.ok, (s.zr[za.val].p32).setWidth 64⟩] } ∧
    exec (.zrRd64 za) s = .next { s with responses := s.responses ++ [⟨.ok, s.zr[za.val].p64⟩] }

/-! ### The whole machine -/

/-- No read has a side effect: the twelve read commands change nothing but the response list, in every state (20_memory.md section 3). -/
def Obligations.ReadCommandsArePure : Prop :=
  ∀ (i : Instr) (s : State), IsRead i = true → ∃ r : Response, exec i s = .next { s with responses := s.responses ++ [r] }

/-- Each piece of state is written only by the commands of the access table: the pair by `CK` updates, writes and `ZR.APPLY`, the rolling context by
`RL.NEW`, `RL.ROLL`, `RL.ROLLN`, an operator register by `ZR.NEW` and `ZR.MUL` naming it, RVALID by `RL.NEW` alone (10_state.md section 7). -/
def Obligations.WritersAreThoseOfTheAccessTable : Prop :=
  ∀ (i : Instr) (s t : State), exec i s = .next t →
    (WritesPair i = false → t.c32 = s.c32 ∧ t.c64 = s.c64) ∧
    (WritesRolling i = false → t.rs32 = s.rs32 ∧ t.rs64 = s.rs64 ∧ t.pos = s.pos ∧ t.win = s.win) ∧
    ((∀ bytes, i ≠ .rlNew bytes) → t.rvalid = s.rvalid ∧ t.w = s.w ∧ t.ob32 = s.ob32 ∧ t.ob64 = s.ob64) ∧
    (∀ k : ZReg, writesOperator i ≠ some k → t.zr[k.val] = s.zr[k.val]) ∧
    t.wmax = s.wmax ∧ t.inbox = s.inbox

/-- The checksummer, the table reads and the operator registers learn nothing of the rolling context: two states that differ only in it get the
same answer and the same pair and operators from every command that is not a rolling command (10_state.md section 7). -/
def Obligations.OtherGroupsDoNotSeeRolling : Prop :=
  ∀ (i : Instr) (s s' t t' : State), IsRolling i = false →
    s.c32 = s'.c32 → s.c64 = s'.c64 → s.zr = s'.zr → s.responses = s'.responses →
    exec i s = .next t → exec i s' = .next t' →
    t.responses = t'.responses ∧ t.c32 = t'.c32 ∧ t.c64 = t'.c64 ∧ t.zr = t'.zr

/-- What the rolling context holds while RVALID = 0 can never be observed: two states that differ only there take the same step, with the same
responses, and as soon as RVALID = 1 they are the same state (10_state.md section 6: "that is safe because every command that would read them raises
`E_NO_WINDOW` first"). This is why the reset values the model chose for it matter to no run (notes/assumptions/5.md). -/
def Obligations.UnconstructedContextIsUnobservable : Prop :=
  ∀ (s s' t : State) (w pos rs32 : BitVec 32) (rs64 : BitVec 64) (win : List Byte)
    (ob32 : Vector (BitVec 32) 256) (ob64 : Vector (BitVec 64) 256),
    s.rvalid = false →
    s' = { s with w := w, pos := pos, rs32 := rs32, rs64 := rs64, win := win, ob32 := ob32, ob64 := ob64 } →
    step s = .next t →
    ∃ t' : State, step s' = .next t' ∧ (t.rvalid = true → t' = t) ∧
      t' = { t with w := t'.w, pos := t'.pos, rs32 := t'.rs32, rs64 := t'.rs64, win := t'.win, ob32 := t'.ob32, ob64 := t'.ob64 }
end

