-- ==== Sys2Proof/Laws/Engine.lean ====
section
/-! SUPPORT. The small lemmas of the engine's definitions: tables indexed by a byte, byte sequences, updates as folds. -/

namespace Sys2Proof.Machine

variable {n : Nat} (poly : BitVec n)

/-- Entry `b` of a table built from `f` is `f b`. -/
@[simp] theorem entry_byteTable {α : Type} (f : Byte → α) (b : Byte) : entry (byteTable f) b = f b := by
  simp [entry, byteTable]

/-- Entry `b` of `OB32` for window size `w`. -/
theorem entry_outTable32 (w : Nat) (b : Byte) : entry (outTable32 w) b = outByte poly32 init32 w b := entry_byteTable _ b

/-- Entry `b` of `OB64` for window size `w`. -/
theorem entry_outTable64 (w : Nat) (b : Byte) : entry (outTable64 w) b = outByte poly64 init64 w b := entry_byteTable _ b

@[simp] theorem mulxIter_zero (v : BitVec n) : mulxIter poly 0 v = v := rfl

theorem mulxIter_succ (k : Nat) (v : BitVec n) : mulxIter poly (k + 1) v = mulxIter poly k (mulx poly v) := rfl

/-- Multiplying by x^(j+k) is multiplying by x^j, then by x^k. -/
theorem mulxIter_add (j k : Nat) (v : BitVec n) : mulxIter poly (j + k) v = mulxIter poly k (mulxIter poly j v) := by
  induction j generalizing v with
  | zero => simp
  | succ j ih => rw [Nat.succ_add, mulxIter_succ, mulxIter_succ, ih]

@[simp] theorem zPow_zero : zPow poly 0 = oneP n := rfl

/-- One more zero byte is eight more multiplications by x. -/
theorem zPow_succ (count : Nat) : zPow poly (count + 1) = mulxIter poly 8 (zPow poly count) := by
  rw [zPow, zPow, Nat.mul_add, mulxIter_add]

@[simp] theorem upd_nil (s : BitVec n) : upd poly s [] = s := rfl

@[simp] theorem upd_cons (s : BitVec n) (b : Byte) (bytes : List Byte) :
    upd poly s (b :: bytes) = upd poly (byteStep poly s b) bytes := rfl

/-- The chunking law of a fold (40 R107, 41 R127). -/
theorem upd_append (s : BitVec n) (m1 m2 : List Byte) : upd poly s (m1 ++ m2) = upd poly (upd poly s m1) m2 := by
  simp [upd]

/-- Fewer than 8 bytes are fed by byte steps only (42 R144). -/
theorem feed_of_short (s : BitVec n) {bytes : List Byte} (h : bytes.length < 8) : feed poly s bytes = upd poly s bytes := by
  rw [feed, Nat.div_eq_of_lt h, sliceRun]

theorem sliceRun_succ (k : Nat) (s : BitVec n) (bytes : List Byte) :
    sliceRun poly (k + 1) s bytes = sliceRun poly k (sliceStep poly s (bytes.take 8)) (bytes.drop 8) := rfl

@[simp] theorem le64_nil : le64 [] = 0 := rfl

@[simp] theorem le64_cons (b : Byte) (d : List Byte) : le64 (b :: d) = b.setWidth 64 ^^^ (le64 d <<< 8) := rfl

/-- A message has eight bytes in an immediate. -/
@[simp] theorem length_messageBytes (imm : Word64) : (messageBytes imm).length = 8 := rfl

/-- Packing the message bytes of an immediate gives the immediate back: `le64(d) = imm64` (42 R143). -/
theorem le64_messageBytes (imm : Word64) : le64 (messageBytes imm) = imm := by
  apply BitVec.eq_of_getLsbD_eq
  intro i hi
  interval_cases i <;> simp [messageBytes, le64, byteAt]

end Sys2Proof.Machine
end

