-- ==== Sys2Proof/Laws/State.lean ====
section
/-! SUPPORT. One lemma per field per update of the state, so that no later proof unfolds a record update, and the read-after-write laws
of the operator register file. -/

namespace Sys2Proof.Machine

variable (s : State)

/-! ### `State.setPair` -/

@[simp] theorem State.c32_setPair (v32 : BitVec 32) (v64 : BitVec 64) : (s.setPair v32 v64).c32 = v32 := rfl
@[simp] theorem State.c64_setPair (v32 : BitVec 32) (v64 : BitVec 64) : (s.setPair v32 v64).c64 = v64 := rfl
@[simp] theorem State.rs32_setPair (v32 : BitVec 32) (v64 : BitVec 64) : (s.setPair v32 v64).rs32 = s.rs32 := rfl
@[simp] theorem State.rs64_setPair (v32 : BitVec 32) (v64 : BitVec 64) : (s.setPair v32 v64).rs64 = s.rs64 := rfl
@[simp] theorem State.zr_setPair (v32 : BitVec 32) (v64 : BitVec 64) : (s.setPair v32 v64).zr = s.zr := rfl
@[simp] theorem State.rvalid_setPair (v32 : BitVec 32) (v64 : BitVec 64) : (s.setPair v32 v64).rvalid = s.rvalid := rfl
@[simp] theorem State.w_setPair (v32 : BitVec 32) (v64 : BitVec 64) : (s.setPair v32 v64).w = s.w := rfl
@[simp] theorem State.pos_setPair (v32 : BitVec 32) (v64 : BitVec 64) : (s.setPair v32 v64).pos = s.pos := rfl
@[simp] theorem State.win_setPair (v32 : BitVec 32) (v64 : BitVec 64) : (s.setPair v32 v64).win = s.win := rfl
@[simp] theorem State.ob32_setPair (v32 : BitVec 32) (v64 : BitVec 64) : (s.setPair v32 v64).ob32 = s.ob32 := rfl
@[simp] theorem State.ob64_setPair (v32 : BitVec 32) (v64 : BitVec 64) : (s.setPair v32 v64).ob64 = s.ob64 := rfl
@[simp] theorem State.wmax_setPair (v32 : BitVec 32) (v64 : BitVec 64) : (s.setPair v32 v64).wmax = s.wmax := rfl
@[simp] theorem State.inbox_setPair (v32 : BitVec 32) (v64 : BitVec 64) : (s.setPair v32 v64).inbox = s.inbox := rfl
@[simp] theorem State.responses_setPair (v32 : BitVec 32) (v64 : BitVec 64) : (s.setPair v32 v64).responses = s.responses := rfl

/-! ### `State.setC32` -/

@[simp] theorem State.c32_setC32 (v : BitVec 32) : (s.setC32 v).c32 = v := rfl
@[simp] theorem State.c64_setC32 (v : BitVec 32) : (s.setC32 v).c64 = s.c64 := rfl
@[simp] theorem State.rs32_setC32 (v : BitVec 32) : (s.setC32 v).rs32 = s.rs32 := rfl
@[simp] theorem State.rs64_setC32 (v : BitVec 32) : (s.setC32 v).rs64 = s.rs64 := rfl
@[simp] theorem State.zr_setC32 (v : BitVec 32) : (s.setC32 v).zr = s.zr := rfl
@[simp] theorem State.rvalid_setC32 (v : BitVec 32) : (s.setC32 v).rvalid = s.rvalid := rfl
@[simp] theorem State.w_setC32 (v : BitVec 32) : (s.setC32 v).w = s.w := rfl
@[simp] theorem State.pos_setC32 (v : BitVec 32) : (s.setC32 v).pos = s.pos := rfl
@[simp] theorem State.win_setC32 (v : BitVec 32) : (s.setC32 v).win = s.win := rfl
@[simp] theorem State.ob32_setC32 (v : BitVec 32) : (s.setC32 v).ob32 = s.ob32 := rfl
@[simp] theorem State.ob64_setC32 (v : BitVec 32) : (s.setC32 v).ob64 = s.ob64 := rfl
@[simp] theorem State.wmax_setC32 (v : BitVec 32) : (s.setC32 v).wmax = s.wmax := rfl
@[simp] theorem State.inbox_setC32 (v : BitVec 32) : (s.setC32 v).inbox = s.inbox := rfl
@[simp] theorem State.responses_setC32 (v : BitVec 32) : (s.setC32 v).responses = s.responses := rfl

/-! ### `State.setC64` -/

@[simp] theorem State.c32_setC64 (v : BitVec 64) : (s.setC64 v).c32 = s.c32 := rfl
@[simp] theorem State.c64_setC64 (v : BitVec 64) : (s.setC64 v).c64 = v := rfl
@[simp] theorem State.rs32_setC64 (v : BitVec 64) : (s.setC64 v).rs32 = s.rs32 := rfl
@[simp] theorem State.rs64_setC64 (v : BitVec 64) : (s.setC64 v).rs64 = s.rs64 := rfl
@[simp] theorem State.zr_setC64 (v : BitVec 64) : (s.setC64 v).zr = s.zr := rfl
@[simp] theorem State.rvalid_setC64 (v : BitVec 64) : (s.setC64 v).rvalid = s.rvalid := rfl
@[simp] theorem State.w_setC64 (v : BitVec 64) : (s.setC64 v).w = s.w := rfl
@[simp] theorem State.pos_setC64 (v : BitVec 64) : (s.setC64 v).pos = s.pos := rfl
@[simp] theorem State.win_setC64 (v : BitVec 64) : (s.setC64 v).win = s.win := rfl
@[simp] theorem State.ob32_setC64 (v : BitVec 64) : (s.setC64 v).ob32 = s.ob32 := rfl
@[simp] theorem State.ob64_setC64 (v : BitVec 64) : (s.setC64 v).ob64 = s.ob64 := rfl
@[simp] theorem State.wmax_setC64 (v : BitVec 64) : (s.setC64 v).wmax = s.wmax := rfl
@[simp] theorem State.inbox_setC64 (v : BitVec 64) : (s.setC64 v).inbox = s.inbox := rfl
@[simp] theorem State.responses_setC64 (v : BitVec 64) : (s.setC64 v).responses = s.responses := rfl

/-! ### `State.setZr` -/

@[simp] theorem State.c32_setZr (k : ZReg) (v : ZOp) : (s.setZr k v).c32 = s.c32 := rfl
@[simp] theorem State.c64_setZr (k : ZReg) (v : ZOp) : (s.setZr k v).c64 = s.c64 := rfl
@[simp] theorem State.rs32_setZr (k : ZReg) (v : ZOp) : (s.setZr k v).rs32 = s.rs32 := rfl
@[simp] theorem State.rs64_setZr (k : ZReg) (v : ZOp) : (s.setZr k v).rs64 = s.rs64 := rfl
@[simp] theorem State.zr_setZr (k : ZReg) (v : ZOp) : (s.setZr k v).zr = s.zr.set k.val v := rfl
@[simp] theorem State.rvalid_setZr (k : ZReg) (v : ZOp) : (s.setZr k v).rvalid = s.rvalid := rfl
@[simp] theorem State.w_setZr (k : ZReg) (v : ZOp) : (s.setZr k v).w = s.w := rfl
@[simp] theorem State.pos_setZr (k : ZReg) (v : ZOp) : (s.setZr k v).pos = s.pos := rfl
@[simp] theorem State.win_setZr (k : ZReg) (v : ZOp) : (s.setZr k v).win = s.win := rfl
@[simp] theorem State.ob32_setZr (k : ZReg) (v : ZOp) : (s.setZr k v).ob32 = s.ob32 := rfl
@[simp] theorem State.ob64_setZr (k : ZReg) (v : ZOp) : (s.setZr k v).ob64 = s.ob64 := rfl
@[simp] theorem State.wmax_setZr (k : ZReg) (v : ZOp) : (s.setZr k v).wmax = s.wmax := rfl
@[simp] theorem State.inbox_setZr (k : ZReg) (v : ZOp) : (s.setZr k v).inbox = s.inbox := rfl
@[simp] theorem State.responses_setZr (k : ZReg) (v : ZOp) : (s.setZr k v).responses = s.responses := rfl

/-! ### `State.rollByte` -/

@[simp] theorem State.c32_rollByte (b : Byte) : (s.rollByte b).c32 = s.c32 := rfl
@[simp] theorem State.c64_rollByte (b : Byte) : (s.rollByte b).c64 = s.c64 := rfl
@[simp] theorem State.rs32_rollByte (b : Byte) : (s.rollByte b).rs32 = step32 (s.rs32 ^^^ entry s.ob32 s.oldest) b := rfl
@[simp] theorem State.rs64_rollByte (b : Byte) : (s.rollByte b).rs64 = step64 (s.rs64 ^^^ entry s.ob64 s.oldest) b := rfl
@[simp] theorem State.zr_rollByte (b : Byte) : (s.rollByte b).zr = s.zr := rfl
@[simp] theorem State.rvalid_rollByte (b : Byte) : (s.rollByte b).rvalid = s.rvalid := rfl
@[simp] theorem State.w_rollByte (b : Byte) : (s.rollByte b).w = s.w := rfl
@[simp] theorem State.pos_rollByte (b : Byte) : (s.rollByte b).pos = s.nextPos := rfl
@[simp] theorem State.win_rollByte (b : Byte) : (s.rollByte b).win = s.win.set s.pos.toNat b := rfl
@[simp] theorem State.ob32_rollByte (b : Byte) : (s.rollByte b).ob32 = s.ob32 := rfl
@[simp] theorem State.ob64_rollByte (b : Byte) : (s.rollByte b).ob64 = s.ob64 := rfl
@[simp] theorem State.wmax_rollByte (b : Byte) : (s.rollByte b).wmax = s.wmax := rfl
@[simp] theorem State.inbox_rollByte (b : Byte) : (s.rollByte b).inbox = s.inbox := rfl
@[simp] theorem State.responses_rollByte (b : Byte) : (s.rollByte b).responses = s.responses := rfl

/-! ### `State.installWindow` -/

@[simp] theorem State.c32_installWindow (bytes : List Byte) : (s.installWindow bytes).c32 = s.c32 := rfl
@[simp] theorem State.c64_installWindow (bytes : List Byte) : (s.installWindow bytes).c64 = s.c64 := rfl
@[simp] theorem State.rs32_installWindow (bytes : List Byte) : (s.installWindow bytes).rs32 = feed32 init32 bytes := rfl
@[simp] theorem State.rs64_installWindow (bytes : List Byte) : (s.installWindow bytes).rs64 = feed64 init64 bytes := rfl
@[simp] theorem State.zr_installWindow (bytes : List Byte) : (s.installWindow bytes).zr = s.zr := rfl
@[simp] theorem State.rvalid_installWindow (bytes : List Byte) : (s.installWindow bytes).rvalid = true := rfl
@[simp] theorem State.w_installWindow (bytes : List Byte) : (s.installWindow bytes).w = BitVec.ofNat 32 bytes.length := rfl
@[simp] theorem State.pos_installWindow (bytes : List Byte) : (s.installWindow bytes).pos = 0 := rfl
@[simp] theorem State.win_installWindow (bytes : List Byte) : (s.installWindow bytes).win = bytes := rfl
@[simp] theorem State.ob32_installWindow (bytes : List Byte) : (s.installWindow bytes).ob32 = outTable32 bytes.length := rfl
@[simp] theorem State.ob64_installWindow (bytes : List Byte) : (s.installWindow bytes).ob64 = outTable64 bytes.length := rfl
@[simp] theorem State.wmax_installWindow (bytes : List Byte) : (s.installWindow bytes).wmax = s.wmax := rfl
@[simp] theorem State.inbox_installWindow (bytes : List Byte) : (s.installWindow bytes).inbox = s.inbox := rfl
@[simp] theorem State.responses_installWindow (bytes : List Byte) : (s.installWindow bytes).responses = s.responses := rfl

/-! ### `State.respond` -/

@[simp] theorem State.c32_respond (status : Status) (data : Word64) : (s.respond status data).c32 = s.c32 := rfl
@[simp] theorem State.c64_respond (status : Status) (data : Word64) : (s.respond status data).c64 = s.c64 := rfl
@[simp] theorem State.rs32_respond (status : Status) (data : Word64) : (s.respond status data).rs32 = s.rs32 := rfl
@[simp] theorem State.rs64_respond (status : Status) (data : Word64) : (s.respond status data).rs64 = s.rs64 := rfl
@[simp] theorem State.zr_respond (status : Status) (data : Word64) : (s.respond status data).zr = s.zr := rfl
@[simp] theorem State.rvalid_respond (status : Status) (data : Word64) : (s.respond status data).rvalid = s.rvalid := rfl
@[simp] theorem State.w_respond (status : Status) (data : Word64) : (s.respond status data).w = s.w := rfl
@[simp] theorem State.pos_respond (status : Status) (data : Word64) : (s.respond status data).pos = s.pos := rfl
@[simp] theorem State.win_respond (status : Status) (data : Word64) : (s.respond status data).win = s.win := rfl
@[simp] theorem State.ob32_respond (status : Status) (data : Word64) : (s.respond status data).ob32 = s.ob32 := rfl
@[simp] theorem State.ob64_respond (status : Status) (data : Word64) : (s.respond status data).ob64 = s.ob64 := rfl
@[simp] theorem State.wmax_respond (status : Status) (data : Word64) : (s.respond status data).wmax = s.wmax := rfl
@[simp] theorem State.inbox_respond (status : Status) (data : Word64) : (s.respond status data).inbox = s.inbox := rfl
@[simp] theorem State.responses_respond (status : Status) (data : Word64) : (s.respond status data).responses = s.responses ++ [⟨status, data⟩] := rfl

/-! ### `State.withInbox` -/

@[simp] theorem State.c32_withInbox (rest : List HostAction) : (s.withInbox rest).c32 = s.c32 := rfl
@[simp] theorem State.c64_withInbox (rest : List HostAction) : (s.withInbox rest).c64 = s.c64 := rfl
@[simp] theorem State.rs32_withInbox (rest : List HostAction) : (s.withInbox rest).rs32 = s.rs32 := rfl
@[simp] theorem State.rs64_withInbox (rest : List HostAction) : (s.withInbox rest).rs64 = s.rs64 := rfl
@[simp] theorem State.zr_withInbox (rest : List HostAction) : (s.withInbox rest).zr = s.zr := rfl
@[simp] theorem State.rvalid_withInbox (rest : List HostAction) : (s.withInbox rest).rvalid = s.rvalid := rfl
@[simp] theorem State.w_withInbox (rest : List HostAction) : (s.withInbox rest).w = s.w := rfl
@[simp] theorem State.pos_withInbox (rest : List HostAction) : (s.withInbox rest).pos = s.pos := rfl
@[simp] theorem State.win_withInbox (rest : List HostAction) : (s.withInbox rest).win = s.win := rfl
@[simp] theorem State.ob32_withInbox (rest : List HostAction) : (s.withInbox rest).ob32 = s.ob32 := rfl
@[simp] theorem State.ob64_withInbox (rest : List HostAction) : (s.withInbox rest).ob64 = s.ob64 := rfl
@[simp] theorem State.wmax_withInbox (rest : List HostAction) : (s.withInbox rest).wmax = s.wmax := rfl
@[simp] theorem State.inbox_withInbox (rest : List HostAction) : (s.withInbox rest).inbox = rest := rfl
@[simp] theorem State.responses_withInbox (rest : List HostAction) : (s.withInbox rest).responses = s.responses := rfl

/-! ### `State.afterReset` -/

@[simp] theorem State.c32_afterReset : (s.afterReset).c32 = State.reset.c32 := rfl
@[simp] theorem State.c64_afterReset : (s.afterReset).c64 = State.reset.c64 := rfl
@[simp] theorem State.rs32_afterReset : (s.afterReset).rs32 = State.reset.rs32 := rfl
@[simp] theorem State.rs64_afterReset : (s.afterReset).rs64 = State.reset.rs64 := rfl
@[simp] theorem State.zr_afterReset : (s.afterReset).zr = State.reset.zr := rfl
@[simp] theorem State.rvalid_afterReset : (s.afterReset).rvalid = State.reset.rvalid := rfl
@[simp] theorem State.w_afterReset : (s.afterReset).w = State.reset.w := rfl
@[simp] theorem State.pos_afterReset : (s.afterReset).pos = State.reset.pos := rfl
@[simp] theorem State.win_afterReset : (s.afterReset).win = State.reset.win := rfl
@[simp] theorem State.ob32_afterReset : (s.afterReset).ob32 = State.reset.ob32 := rfl
@[simp] theorem State.ob64_afterReset : (s.afterReset).ob64 = State.reset.ob64 := rfl
@[simp] theorem State.wmax_afterReset : (s.afterReset).wmax = s.wmax := rfl
@[simp] theorem State.inbox_afterReset : (s.afterReset).inbox = s.inbox := rfl
@[simp] theorem State.responses_afterReset : (s.afterReset).responses = State.reset.responses := rfl

/-! ### The operator registers -/

/-- Reading the register just written gives the value written. -/
@[simp] theorem State.getZr_setZr_self (k : ZReg) (v : ZOp) : (s.setZr k v).getZr k = v := by
  simp [State.getZr]

/-- Writing one operator register leaves the others alone. -/
theorem State.getZr_setZr_ne {k j : ZReg} (h : j ≠ k) (v : ZOp) : (s.setZr k v).getZr j = s.getZr j := by
  simp only [State.getZr, State.zr_setZr]
  exact Vector.getElem_set_ne _ _ (fun e => h (Fin.ext e.symm))

/-- Every operator register holds the identity after reset. -/
@[simp] theorem State.getZr_reset (k : ZReg) : State.reset.getZr k = identityOp := by
  simp [State.getZr, State.reset]

@[simp] theorem State.getZr_setPair (v32 : BitVec 32) (v64 : BitVec 64) (k : ZReg) : (s.setPair v32 v64).getZr k = s.getZr k := rfl
@[simp] theorem State.getZr_setC32 (v : BitVec 32) (k : ZReg) : (s.setC32 v).getZr k = s.getZr k := rfl
@[simp] theorem State.getZr_setC64 (v : BitVec 64) (k : ZReg) : (s.setC64 v).getZr k = s.getZr k := rfl
@[simp] theorem State.getZr_rollByte (b : Byte) (k : ZReg) : (s.rollByte b).getZr k = s.getZr k := rfl
@[simp] theorem State.getZr_installWindow (bytes : List Byte) (k : ZReg) : (s.installWindow bytes).getZr k = s.getZr k := rfl
@[simp] theorem State.getZr_respond (status : Status) (data : Word64) (k : ZReg) : (s.respond status data).getZr k = s.getZr k := rfl
@[simp] theorem State.getZr_withInbox (rest : List HostAction) (k : ZReg) : (s.withInbox rest).getZr k = s.getZr k := rfl

end Sys2Proof.Machine
end

