-- ==== Sys2Proof/Laws/Ops.lean ====
section
/-! SUPPORT. One lemma per shared operation that says everything it can do, and the one inversion lemma of a step. -/

namespace Sys2Proof.Machine

/-- Responding changes the response list and nothing else. -/
theorem respond_eq (s : State) (st : Status) (d : Word64) :
    s.respond st d = { s with responses := s.responses ++ [⟨st, d⟩] } := rfl

/-- `answer` always answers, with the result as the last response. -/
theorem answer_next_iff {s t : State} {d : Word64} : answer s d = .next t ↔ t = s.respond .ok d := by
  simp [answer, eq_comm]

/-- `raise E` always answers, with `(E, 0)` as the last response and nothing else changed. -/
theorem raiseError_next_iff {s t : State} {e : Status} : raiseError s e = .next t ↔ t = s.respond e 0 := by
  simp [raiseError, noData, eq_comm]

/-- With a rolling context the guard runs the command. -/
@[simp] theorem withWindow_of_valid {s : State} (h : s.rvalid = true) (body : Result) : withWindow s body = body := by
  simp [withWindow, h]

/-- Without a rolling context the guard raises `E_NO_WINDOW`. -/
@[simp] theorem withWindow_of_not_valid {s : State} (h : s.rvalid = false) (body : Result) :
    withWindow s body = raiseError s .eNoWindow := by
  simp [withWindow, h]

/-- What the guard can answer. -/
theorem withWindow_next {s t : State} {body : Result} (h : withWindow s body = .next t) :
    (s.rvalid = true ∧ body = .next t) ∨ (s.rvalid = false ∧ t = s.respond .eNoWindow 0) := by
  cases hv : s.rvalid with
  | true => exact .inl ⟨rfl, by simpa [hv] using h⟩
  | false => exact .inr ⟨rfl, raiseError_next_iff.mp (by simpa [hv] using h)⟩

/-- What `RL.NEW` can answer: the two errors in their order, or the new context. -/
theorem execRlNew_next {bytes : List Byte} {s t : State} (h : execRlNew bytes s = .next t) :
    (bytes.length = 0 ∧ t = s.respond .eInvalidWindow 0) ∨
    (s.wmax.toNat < bytes.length ∧ t = s.respond .eCapacity 0) ∨
    (1 ≤ bytes.length ∧ bytes.length ≤ s.wmax.toNat ∧ t = (s.installWindow bytes).respond .ok 0) := by
  simp only [execRlNew] at h
  split at h
  · exact .inl ⟨‹_›, raiseError_next_iff.mp h⟩
  · split at h
    · exact .inr (.inl ⟨‹_›, raiseError_next_iff.mp h⟩)
    · exact .inr (.inr ⟨by omega, by omega, answer_next_iff.mp h⟩)

/-- Everything a step can do: stay idle, take a reset, run the decoded command, or answer an illegal packet. -/
theorem step_cases {s t : State} (h : step s = .next t) :
    (s.inbox = [] ∧ t = s) ∨
    (∃ rest, s.inbox = .reset :: rest ∧ t = (s.withInbox rest).afterReset) ∨
    (∃ p rest i, s.inbox = .packet p :: rest ∧ decode p = .ok i ∧ exec i (s.withInbox rest) = .next t) ∨
    (∃ p rest e, s.inbox = .packet p :: rest ∧ decode p = .error e ∧ t = (s.withInbox rest).respond .eIllegal 0) := by
  unfold step at h
  split at h
  · next h0 => exact .inl ⟨h0, by simpa using h.symm⟩
  · next rest h0 => exact .inr (.inl ⟨rest, h0, by simpa using h.symm⟩)
  · next p rest h0 =>
    split at h
    · next i hd => exact .inr (.inr (.inl ⟨p, rest, i, h0, hd, h⟩))
    · next e hd => exact .inr (.inr (.inr ⟨p, rest, e, h0, hd, raiseError_next_iff.mp h⟩))

end Sys2Proof.Machine
end

