-- ==== Sys2Proof/Laws/PerInstr.lean ====
section
/-! SUPPORT. The family of per-instruction statements named in LAWS.json: the header a command is encoded with is a header of its own row of
the opcode map, so every reserved bit and every field the command does not use is 0 (spec/30_encoding.md R72, R76). -/

namespace Sys2Proof.Laws

/-- The encoded header of `i` matches its row: `H & mask = match` (30_encoding.md R76). -/
def HeaderMatchesRow.Statement (i : Instr) : Prop := (encode i).head &&& i.opcode.mask = i.opcode.matchWord

theorem HeaderMatchesRow.ckInit : HeaderMatchesRow.Statement .ckInit := by
  simp only [HeaderMatchesRow.Statement]
  decide

theorem HeaderMatchesRow.ckUpd8 (b : Byte) : HeaderMatchesRow.Statement (.ckUpd8 b) := by
  revert b
  simp only [HeaderMatchesRow.Statement, encode]
  decide +kernel

theorem HeaderMatchesRow.ckUpd64 (imm : Word64) : HeaderMatchesRow.Statement (.ckUpd64 imm) := by
  simp only [HeaderMatchesRow.Statement, encode, encodeHead, Instr.opcode]
  decide

theorem HeaderMatchesRow.ckUpdN (bytes : List Byte) : HeaderMatchesRow.Statement (.ckUpdN bytes) := by
  simp only [HeaderMatchesRow.Statement, encode, encodeHead, Instr.opcode]
  decide

theorem HeaderMatchesRow.ckGet32 : HeaderMatchesRow.Statement .ckGet32 := by
  simp only [HeaderMatchesRow.Statement]
  decide

theorem HeaderMatchesRow.ckGet64 : HeaderMatchesRow.Statement .ckGet64 := by
  simp only [HeaderMatchesRow.Statement]
  decide

theorem HeaderMatchesRow.ckRds32 : HeaderMatchesRow.Statement .ckRds32 := by
  simp only [HeaderMatchesRow.Statement]
  decide

theorem HeaderMatchesRow.ckRds64 : HeaderMatchesRow.Statement .ckRds64 := by
  simp only [HeaderMatchesRow.Statement]
  decide

theorem HeaderMatchesRow.ckWrs32 (v : Word) : HeaderMatchesRow.Statement (.ckWrs32 v) := by
  simp only [HeaderMatchesRow.Statement, encode, encodeHead, Instr.opcode]
  decide

theorem HeaderMatchesRow.ckWrs64 (v : Word64) : HeaderMatchesRow.Statement (.ckWrs64 v) := by
  simp only [HeaderMatchesRow.Statement, encode, encodeHead, Instr.opcode]
  decide

theorem HeaderMatchesRow.tbRd32 (ti : TabIx) (b : Byte) : HeaderMatchesRow.Statement (.tbRd32 ti b) := by
  revert ti b
  simp only [HeaderMatchesRow.Statement, encode]
  decide +kernel

theorem HeaderMatchesRow.tbRd64 (ti : TabIx) (b : Byte) : HeaderMatchesRow.Statement (.tbRd64 ti b) := by
  revert ti b
  simp only [HeaderMatchesRow.Statement, encode]
  decide +kernel

theorem HeaderMatchesRow.rlNew (bytes : List Byte) : HeaderMatchesRow.Statement (.rlNew bytes) := by
  simp only [HeaderMatchesRow.Statement, encode, encodeHead, Instr.opcode]
  decide

theorem HeaderMatchesRow.rlRoll (b : Byte) : HeaderMatchesRow.Statement (.rlRoll b) := by
  revert b
  simp only [HeaderMatchesRow.Statement, encode]
  decide +kernel

theorem HeaderMatchesRow.rlRollN (bytes : List Byte) : HeaderMatchesRow.Statement (.rlRollN bytes) := by
  simp only [HeaderMatchesRow.Statement, encode, encodeHead, Instr.opcode]
  decide

theorem HeaderMatchesRow.rlGet32 : HeaderMatchesRow.Statement .rlGet32 := by
  simp only [HeaderMatchesRow.Statement]
  decide

theorem HeaderMatchesRow.rlGet64 : HeaderMatchesRow.Statement .rlGet64 := by
  simp only [HeaderMatchesRow.Statement]
  decide

theorem HeaderMatchesRow.rlRdob32 (b : Byte) : HeaderMatchesRow.Statement (.rlRdob32 b) := by
  revert b
  simp only [HeaderMatchesRow.Statement, encode]
  decide +kernel

theorem HeaderMatchesRow.rlRdob64 (b : Byte) : HeaderMatchesRow.Statement (.rlRdob64 b) := by
  revert b
  simp only [HeaderMatchesRow.Statement, encode]
  decide +kernel

theorem HeaderMatchesRow.zrNew (zd : ZReg) (count : Word64) : HeaderMatchesRow.Statement (.zrNew zd count) := by
  revert zd
  simp only [HeaderMatchesRow.Statement, encode, encodeHead, Instr.opcode]
  decide +kernel

theorem HeaderMatchesRow.zrMul (zd : ZReg) (za : ZReg) (zb : ZReg) : HeaderMatchesRow.Statement (.zrMul zd za zb) := by
  revert zd za zb
  simp only [HeaderMatchesRow.Statement, encode]
  decide +kernel

theorem HeaderMatchesRow.zrApply (za : ZReg) : HeaderMatchesRow.Statement (.zrApply za) := by
  revert za
  simp only [HeaderMatchesRow.Statement, encode]
  decide +kernel

theorem HeaderMatchesRow.zrRd32 (za : ZReg) : HeaderMatchesRow.Statement (.zrRd32 za) := by
  revert za
  simp only [HeaderMatchesRow.Statement, encode]
  decide +kernel

theorem HeaderMatchesRow.zrRd64 (za : ZReg) : HeaderMatchesRow.Statement (.zrRd64 za) := by
  revert za
  simp only [HeaderMatchesRow.Statement, encode]
  decide +kernel

end Sys2Proof.Laws
end

