-- ==== Sys2Proof/Laws/Ring.lean ====
section
/-! SUPPORT. The ring buffer: its form, that every operation which writes it keeps the form, and the window it holds. -/

namespace Sys2Proof.Machine

/-- The form of the ring, spelled out. -/
theorem ringWf_iff {s : State} : s.ringWf = true ↔
    (s.rvalid = true → 1 ≤ s.w.toNat ∧ s.w.toNat ≤ s.wmax.toNat ∧ s.pos.toNat < s.w.toNat ∧ s.win.length = s.w.toNat) := by
  cases h : s.rvalid <;> simp [State.ringWf, h, and_assoc]

/-- The read position after a roll is a slot. -/
theorem nextPos_toNat {s : State} (h : 1 ≤ s.w.toNat) : s.nextPos.toNat = (s.pos.toNat + 1) % s.w.toNat := by
  have := Nat.mod_lt (s.pos.toNat + 1) h
  have := s.w.isLt
  simp only [State.nextPos, BitVec.toNat_ofNat]
  exact Nat.mod_eq_of_lt (by omega)

/-- Rolling a byte in keeps the form of the ring. -/
theorem ringWf_rollByte {s : State} (h : s.ringWf = true) (b : Byte) : (s.rollByte b).ringWf = true := by
  rw [ringWf_iff] at h ⊢
  intro hv
  obtain ⟨h1, h2, h3, h4⟩ := h hv
  refine ⟨h1, h2, ?_, by simpa using h4⟩
  simpa [nextPos_toNat h1] using Nat.mod_lt _ h1

/-- A new window of 1 to `WMAX` bytes has the form of the ring. -/
theorem ringWf_installWindow {s : State} {bytes : List Byte} (h1 : 1 ≤ bytes.length) (h2 : bytes.length ≤ s.wmax.toNat) :
    (s.installWindow bytes).ringWf = true := by
  have := s.wmax.isLt
  have hw : (BitVec.ofNat 32 bytes.length).toNat = bytes.length := by
    rw [BitVec.toNat_ofNat]
    exact Nat.mod_eq_of_lt (by omega)
  rw [ringWf_iff]
  intro _
  simp only [State.w_installWindow, State.wmax_installWindow, State.pos_installWindow, State.win_installWindow, hw]
  exact ⟨h1, h2, h1, trivial⟩

/-- The ring has its form at reset. -/
theorem ringWf_reset : State.reset.ringWf = true := by decide

/-- The window has as many bytes as the ring has slots. -/
@[simp] theorem length_window (s : State) : s.window.length = s.win.length := by
  simp [State.window]
  omega

/-- Byte `j` of the window is slot `(POS + j) mod W` (10_state.md R28). -/
theorem window_getElem {s : State} (hp : s.pos.toNat < s.win.length) {j : Nat} (hj : j < s.win.length) :
    s.window[j]? = s.win[(s.pos.toNat + j) % s.win.length]? := by
  simp only [State.window, List.getElem?_append, List.length_drop, List.getElem?_drop, List.getElem?_take]
  split
  · rw [Nat.mod_eq_of_lt (by omega)]
  · rw [if_pos (by omega), Nat.mod_eq_sub_mod (by omega), Nat.mod_eq_of_lt (by omega)]
    congr 1
    omega

end Sys2Proof.Machine
end

