-- ==== Sys2Proof/Tests/Slice0.lean ====
section
/-! SUPPORT. The model's own tests: the ill-formed terms, one packet and one effect per command, the illegal packets, the fetch, and for every
statement with hypotheses a witness that meets them. Expected values are those of spec/95_test_vectors.md unless a line says otherwise. -/

namespace Sys2Proof.Tests

open Sys2Proof.Machine Sys2Proof.Claims

/-! ### Helpers -/

/-- The next state of a result, if it is one. -/
def stateOf : Result → Option State
  | .next t => some t
  | .fault _ => none
  | .refused _ => none

/-- The last response of a result. -/
def lastOf (r : Result) : Option Response := (stateOf r).bind fun t => t.responses.getLast?

/-- The checksummer pair after a result. -/
def pairOf (r : Result) : Option (BitVec 32 × BitVec 64) := (stateOf r).map fun t => (t.c32, t.c64)

/-- A small state with a given pair. -/
def withPair (v32 : BitVec 32) (v64 : BitVec 64) : State := State.reset.setPair v32 v64

/-- The state after `RL.NEW "abc"` from reset, but for the response. -/
def abc : State := State.reset.installWindow [0x61, 0x62, 0x63]

/-- The state after reset in a block with `WMAX` = 4. -/
def four : State := { State.reset with wmax := 4 }

/-- `abc` with one more packet pending. -/
def abcThen (i : Instr) : State := abc.withInbox [.packet (encode i)]

/-! ### Well-formedness: the one check, for each command that has a payload -/

theorem test_wf_refuses_long_ckUpdN : (Instr.ckUpdN (List.replicate 4294967296 0)).wf = false := by
  rw [Instr.wf, Instr.payload, List.length_replicate]
  decide

theorem test_wf_refuses_long_rlNew : (Instr.rlNew (List.replicate 4294967296 0)).wf = false := by
  rw [Instr.wf, Instr.payload, List.length_replicate]
  decide

theorem test_wf_refuses_long_rlRollN : (Instr.rlRollN (List.replicate 4294967296 0)).wf = false := by
  rw [Instr.wf, Instr.payload, List.length_replicate]
  decide

/-! ### Decoding: the packets of 95_test_vectors.md section 2.6, written out from the encoding -/

/-- The command a packet decodes to. -/
def commandOf (p : Packet) : Option Instr :=
  match decode p with
  | .ok i => some i
  | .error _ => none

theorem test_decode_ckInit : commandOf ⟨0x00000000, []⟩ = some .ckInit := by decide
theorem test_decode_ckUpd8 : commandOf ⟨0x010000A5, []⟩ = some (.ckUpd8 0xA5) := by decide
theorem test_decode_ckUpd64 :
    commandOf ⟨0x02000000, [0x04030201, 0x08070605]⟩ = some (.ckUpd64 0x0807060504030201) := by decide
theorem test_decode_ckUpdN :
    commandOf ⟨0x03000000, [5, 0x64636261, 0x00000065]⟩ = some (.ckUpdN [0x61, 0x62, 0x63, 0x64, 0x65]) := by decide
theorem test_decode_ckGet32 : commandOf ⟨0x04000000, []⟩ = some .ckGet32 := by decide
theorem test_decode_ckGet64 : commandOf ⟨0x05000000, []⟩ = some .ckGet64 := by decide
theorem test_decode_ckRds32 : commandOf ⟨0x06000000, []⟩ = some .ckRds32 := by decide
theorem test_decode_ckRds64 : commandOf ⟨0x07000000, []⟩ = some .ckRds64 := by decide
theorem test_decode_ckWrs32 : commandOf ⟨0x08000000, [0xDEADBEEF, 0]⟩ = some (.ckWrs32 0xDEADBEEF) := by decide
theorem test_decode_ckWrs64 :
    commandOf ⟨0x09000000, [0x89ABCDEF, 0x01234567]⟩ = some (.ckWrs64 0x0123456789ABCDEF) := by decide
theorem test_decode_tbRd32 : commandOf ⟨0x100005A5, []⟩ = some (.tbRd32 5 0xA5) := by decide
theorem test_decode_tbRd64 : commandOf ⟨0x110007FF, []⟩ = some (.tbRd64 7 0xFF) := by decide
theorem test_decode_rlNew :
    commandOf ⟨0x20000000, [4, 0x64636261]⟩ = some (.rlNew [0x61, 0x62, 0x63, 0x64]) := by decide
theorem test_decode_rlRoll : commandOf ⟨0x2100007A, []⟩ = some (.rlRoll 0x7A) := by decide
theorem test_decode_rlRollN :
    commandOf ⟨0x22000000, [6, 0x04030201, 0x00000605]⟩ = some (.rlRollN [1, 2, 3, 4, 5, 6]) := by decide
theorem test_decode_rlGet32 : commandOf ⟨0x23000000, []⟩ = some .rlGet32 := by decide
theorem test_decode_rlGet64 : commandOf ⟨0x24000000, []⟩ = some .rlGet64 := by decide
theorem test_decode_rlRdob32 : commandOf ⟨0x25000061, []⟩ = some (.rlRdob32 0x61) := by decide
theorem test_decode_rlRdob64 : commandOf ⟨0x260000FF, []⟩ = some (.rlRdob64 0xFF) := by decide
theorem test_decode_zrNew : commandOf ⟨0x30200000, [0x000003E8, 0]⟩ = some (.zrNew 2 1000) := by decide
theorem test_decode_zrMul : commandOf ⟨0x31312000, []⟩ = some (.zrMul 3 1 2) := by decide
theorem test_decode_zrApply : commandOf ⟨0x32030000, []⟩ = some (.zrApply 3) := by decide
theorem test_decode_zrRd32 : commandOf ⟨0x33010000, []⟩ = some (.zrRd32 1) := by decide
theorem test_decode_zrRd64 : commandOf ⟨0x34020000, []⟩ = some (.zrRd64 2) := by decide

/-- The illegal packets of 95_test_vectors.md section 2.6, refused by name. -/
def causeOf (p : Packet) : Option Illegal :=
  match decode p with
  | .ok _ => none
  | .error e => some e

theorem test_unknown_opcodes :
    [0xFF000000, 0x0A000000, 0x12000000, 0x27000000, 0x35000000].map (fun h => causeOf ⟨h, []⟩) =
      List.replicate 5 (some .unknownOpcode) := by decide

theorem test_header_bits :
    [0x00000001, 0x00800000, 0x01100041, 0x01000841, 0x10000800, 0x31400000, 0x32100000, 0x21100041].map (fun h => causeOf ⟨h, []⟩) =
      List.replicate 8 (some .headerBits) := by decide

theorem test_header_bits_zrNew : causeOf ⟨0x30010000, [1, 0]⟩ = some .headerBits := by decide

theorem test_word_counts :
    [(⟨0x00000000, [0]⟩ : Packet), ⟨0x02000000, [0x34333231]⟩, ⟨0x02000000, [0, 0, 0]⟩, ⟨0x03000000, []⟩, ⟨0x03000000, [3]⟩,
     ⟨0x03000000, [4, 0x64636261, 0]⟩, ⟨0x03000000, [0, 0]⟩, ⟨0x20000000, [0, 0]⟩].map causeOf =
      List.replicate 8 (some .wordCount) := by decide

theorem test_padding_and_high_word :
    [(⟨0x03000000, [3, 0x01636261]⟩ : Packet), ⟨0x20000000, [5, 0x64636261, 0x01000065]⟩, ⟨0x08000000, [0, 1]⟩].map causeOf =
      [some .padding, some .padding, some .highWord] := by decide

/-! ### Effects, one command each -/

theorem test_ckInit : pairOf (exec .ckInit (withPair 1 2)) = some (0xFFFFFFFF, 0xFFFFFFFFFFFFFFFF) := by decide
theorem test_ckUpd8 : pairOf (exec (.ckUpd8 0x61) State.reset) = some (0x3E2FBCCF, 0xCCFD7B88D19AD4FA) := by decide
theorem test_ckUpd64 :
    pairOf (exec (.ckUpd64 0x3837363534333231) State.reset) = some (0x9F787F65, 0xA3747FB7D45387F6) := by decide
theorem test_ckUpdN :
    pairOf (exec (.ckUpdN [0x31, 0x32, 0x33, 0x34, 0x35, 0x36, 0x37, 0x38, 0x39]) State.reset) =
      some (0x1CF96D7C, 0x66A2364420E6C605) := by decide
theorem test_ckGet32 : lastOf (exec .ckGet32 (withPair 0x1CF96D7C 0)) = some ⟨.ok, 0x00000000E3069283⟩ := by decide
theorem test_ckGet64 : lastOf (exec .ckGet64 (withPair 0 0x66A2364420E6C605)) = some ⟨.ok, 0x995DC9BBDF1939FA⟩ := by decide
theorem test_ckRds32 : lastOf (exec .ckRds32 State.reset) = some ⟨.ok, 0x00000000FFFFFFFF⟩ := by decide
theorem test_ckRds64 : lastOf (exec .ckRds64 State.reset) = some ⟨.ok, 0xFFFFFFFFFFFFFFFF⟩ := by decide
theorem test_ckWrs32 : pairOf (exec (.ckWrs32 0x1CF96D7C) State.reset) = some (0x1CF96D7C, 0xFFFFFFFFFFFFFFFF) := by decide
theorem test_ckWrs64 :
    pairOf (exec (.ckWrs64 0x66A2364420E6C605) State.reset) = some (0xFFFFFFFF, 0x66A2364420E6C605) := by decide
theorem test_tbRd32 : lastOf (exec (.tbRd32 7 0x80) State.reset) = some ⟨.ok, 0x0000000034019664⟩ := by decide
theorem test_tbRd64 : lastOf (exec (.tbRd64 7 0xFF) State.reset) = some ⟨.ok, 0x57CF77ADAED5E964⟩ := by decide

theorem test_rlNew :
    (stateOf (exec (.rlNew [0x61, 0x62, 0x63]) State.reset)).map (fun t => (t.w, t.win, t.rs32, t.rs64)) =
      some (3, [0x61, 0x62, 0x63], 0xC9B4C048, 0xD327F6B5E5D889D8) := by decide +kernel

/-- `WMAX` = 4: an empty window, the shortest, the longest and one too long (60_exceptions.md R233, R236; program P7). -/
theorem test_rlNew_bounds :
    [0, 1, 4, 5].map (fun k => lastOf (exec (.rlNew (List.replicate k 0x61)) four)) =
      [some ⟨.eInvalidWindow, 0⟩, some ⟨.ok, 0⟩, some ⟨.ok, 0⟩, some ⟨.eCapacity, 0⟩] := by decide

theorem test_rlRoll :
    (stateOf (exec (.rlRoll 0x64) abc)).map (fun t => (t.pos, t.win, t.rs32, t.rs64)) =
      some (1, [0x64, 0x62, 0x63], 0xE4F2FCA7, 0xFAA815955EDE6F8F) := by decide +kernel

theorem test_rlRollN :
    (stateOf (exec (.rlRollN [0x64, 0x65, 0x66, 0x67, 0x68, 0x69, 0x6A]) abc)).map (fun t => (t.pos, t.win, t.rs32, t.rs64)) =
      some (1, [0x6A, 0x68, 0x69], 0x85E5DC1E, 0x2F3DCE6F5EB2CF37) := by decide +kernel

theorem test_rlGet32 : lastOf (exec .rlGet32 abc) = some ⟨.ok, 0x00000000364B3FB7⟩ := by decide +kernel
theorem test_rlGet64 : lastOf (exec .rlGet64 abc) = some ⟨.ok, 0x2CD8094A1A277627⟩ := by decide +kernel
theorem test_rlRdob32 : lastOf (exec (.rlRdob32 0x61) abc) = some ⟨.ok, 0x0000000012653D1B⟩ := by decide +kernel
theorem test_rlRdob64 : lastOf (exec (.rlRdob64 0xFF) abc) = some ⟨.ok, 0x0000FF0000000000⟩ := by decide +kernel

/-- Every rolling command but `RL.NEW` is refused before a window exists (60_exceptions.md R235). -/
theorem test_no_window :
    [Instr.rlRoll 0x41, .rlRollN [], .rlGet32, .rlGet64, .rlRdob32 0, .rlRdob64 0].map (fun i => lastOf (exec i State.reset)) =
      List.replicate 6 (some ⟨.eNoWindow, 0⟩) := by decide

theorem test_zrNew :
    (stateOf (exec (.zrNew 1 600) State.reset)).map (fun t => (t.getZr 1, t.getZr 0)) =
      some (⟨0x1BA7106E, 0xEC8D6B9568A27CA9⟩, ⟨0x80000000, 0x8000000000000000⟩) := by decide +kernel

/-- Squaring in place: the operator for 3 becomes the operator for 6 (program P8). -/
theorem test_zrMul :
    (stateOf (exec (.zrMul 0 0 0) (State.reset.setZr 0 ⟨0x00000080, 0x0000008000000000⟩))).map (fun t => t.getZr 0) =
      some ⟨0x8B277743, 0x0000000000008000⟩ := by decide +kernel

theorem test_zrApply :
    pairOf (exec (.zrApply 3) ((withPair 0x375EF91A 0x71A61EBC99A7883B).setZr 3 ⟨0x443D3EB3, 0xAB388FFECD317C65⟩)) =
      some (0xC8DE0CDE, 0x2909F10ECDE487A4) := by decide +kernel

theorem test_zrRd32 : lastOf (exec (.zrRd32 2) State.reset) = some ⟨.ok, 0x0000000080000000⟩ := by decide
theorem test_zrRd64 : lastOf (exec (.zrRd64 3) State.reset) = some ⟨.ok, 0x8000000000000000⟩ := by decide

/-- The largest immediate (44_zeros.md R200). -/
theorem test_zeros_largest :
    (zeros32 0xFFFFFFFFFFFFFFFF, zeros64 0xFFFFFFFFFFFFFFFF) = (0x00000080, 0xE44533694E6A6F17) := by decide +kernel

/-! ### The step and the fetch -/

/-- An illegal packet wins over the missing window (60_exceptions.md R238). -/
theorem test_illegal_wins :
    lastOf (step (State.reset.withInbox [.packet ⟨0x21100041, []⟩])) = some ⟨.eIllegal, 0⟩ := by decide

/-- A host word `0x01000061` placed as the next instruction runs `CK.UPD8 'a'`. -/
theorem test_withFetchWord :
    pairOf (step (State.reset.withFetchWord 32 0x01000061)) = some (0x3E2FBCCF, 0xCCFD7B88D19AD4FA) := by decide

/-- Operand words beyond the header are zeros: `ZR.NEW z2, 0` and `CK.UPDN ""`. -/
theorem test_decodeTableWord :
    (decodeTableWord 32 0x30200000, decodeTableWord 32 0x03000000) = (some (.zrNew 2 0), some (.ckUpdN [])) := by decide

/-- Reset discards the window and keeps the pending packets (70_reset_and_hazards.md R260; notes/assumptions/8.md). -/
theorem test_reset_action :
    (stateOf (step (abc.withInbox [.reset, .packet ⟨0x23000000, []⟩]))).map (fun t => (t.rvalid, t.win, t.inbox, t.responses)) =
      some (false, [], [.packet ⟨0x23000000, []⟩], []) := by decide

/-! ### Witnesses: for every statement with hypotheses, values that meet them together -/

theorem abc_rvalid : abc.rvalid = true := rfl

theorem abc_tablesInv : abc.TablesInv := fun _ => ⟨rfl, rfl⟩

theorem abc_windowCrcInv : abc.WindowCrcInv := fun _ => by decide +kernel

theorem abc_operatorsInv : abc.OperatorsInv := fun k => ⟨0, by
  simp only [abc, State.getZr_installWindow, State.getZr_reset]
  decide⟩

theorem abc_ringWf : abc.ringWf = true := by decide +kernel

theorem abc_inv : abc.Inv := ⟨abc_ringWf, abc_tablesInv, abc_windowCrcInv, abc_operatorsInv⟩

/-- A packet step from `abc` answers a next state. -/
theorem abcThen_rlRoll_steps : ∃ t, step (abcThen (.rlRoll 0x64)) = .next t := ⟨_, rfl⟩

theorem witness_DecodeOfEncode : (Instr.ckUpdN [0x61]).wf = true := by decide
theorem witness_EncodeOfDecode : decode ⟨0x31312000, []⟩ = .ok (.zrMul 3 1 2) := rfl
theorem witness_HeaderSelectsOneRow :
    (0x010000A5 &&& Opcode.ckUpd8.mask = Opcode.ckUpd8.matchWord) ∧ decode ⟨0x010000A5, []⟩ = .ok (.ckUpd8 0xA5) := ⟨by decide, rfl⟩
theorem witness_ImmediateLowWordFirst :
    (∃ hi : Word, hi ≠ 0) ∧ ([0x01] : List Word).length ≠ 2 ∧ ([0x01, 0x02, 0x03] : List Word).length ≠ 2 ∧
    (0x30300000 : Word) ∈ [(0x02000000 : Word), 0x08000000, 0x09000000, 0x30000000 ||| (BitVec.ofNat 32 (3 : ZReg).val <<< 20)] :=
  ⟨⟨1, by decide⟩, by decide⟩
theorem witness_PayloadByteLanes :
    decode ⟨0x22000000, [6, 0x04030201, 0x00000605]⟩ = .ok (.rlRollN [1, 2, 3, 4, 5, 6]) ∧
    ([0x04030201, 0x00000605] : List Word).getLast? = some 0x00000605 ∧ (6#32).toNat % 4 ≠ 0 ∧ (6#32).toNat % 4 ≤ 3 := ⟨rfl, by decide⟩
theorem witness_StepRunsDecodedCommand :
    (abcThen (.rlRoll 0x64)).inbox = .packet (encode (.rlRoll 0x64)) :: [] ∧ decode (encode (.rlRoll 0x64)) = .ok (.rlRoll 0x64) ∧
    decode ⟨0xFF000000, []⟩ = .error .unknownOpcode := ⟨rfl, rfl, rfl⟩

theorem witness_illegal_a : IllegalPacket ⟨0xFF000000, []⟩ := .inl (by intro o; cases o <;> decide)
theorem witness_illegal_b : IllegalPacket ⟨0x01100041, []⟩ := .inr ⟨.ckUpd8, by decide, .inl (by decide)⟩
theorem witness_illegal_c : IllegalPacket ⟨0x00000000, [0]⟩ :=
  .inr ⟨.ckInit, by decide, .inr (.inl (by simp [WrongCount, Opcode.format, wordCount]))⟩
theorem witness_illegal_d : IllegalPacket ⟨0x03000000, [3, 0x01636261]⟩ :=
  .inr ⟨.ckUpdN, by decide, .inr (.inr (.inl ⟨rfl, 3, 0x01636261, 3, rfl, rfl, by decide, by decide, by decide, by decide⟩))⟩
theorem witness_illegal_e : IllegalPacket ⟨0x08000000, [0, 1]⟩ :=
  .inr ⟨.ckWrs32, by decide, .inr (.inr (.inr ⟨rfl, 1, rfl, by decide⟩))⟩
theorem witness_legal : ¬ IllegalPacket ⟨0x04000000, []⟩ := by
  rintro (h | ⟨o, ho, h⟩)
  · exact h .ckGet32 (by decide)
  · have : o = .ckGet32 := by revert ho; cases o <;> decide
    subst this
    rcases h with h | h | ⟨h, _⟩ | ⟨h, _⟩
    · exact h (by decide)
    · simp [WrongCount, Opcode.format, wordCount] at h
    · exact absurd h (by decide)
    · exact absurd h (by decide)

theorem witness_OneResponsePerPacket : (abcThen .rlGet32).inbox = .packet (encode .rlGet32) :: [] := rfl
theorem witness_IdleStepKeepsState : State.reset.inbox = [] := rfl
theorem witness_ResetActionGivesResetState : (abc.withInbox [.reset]).inbox = .reset :: [] := rfl

/-- A step from a state with a window that meets every invariant, for the four statements that every step keeps one. -/
theorem witness_StepKeeps :
    ∃ s t, s.rvalid = true ∧ s.ringWf = true ∧ s.TablesInv ∧ s.WindowCrcInv ∧ s.OperatorsInv ∧ step s = .next t :=
  ⟨abcThen (.rlRoll 0x64), _, rfl, abc_ringWf, abc_tablesInv, abc_windowCrcInv, abc_operatorsInv, rfl⟩

theorem witness_SliceIsEightByteSteps : ([1, 2, 3, 4, 5, 6, 7, 8] : List Byte).length = 8 := rfl
theorem witness_UpdateIsLinear : ([1, 2] : List Byte).length = ([3, 4] : List Byte).length := rfl
theorem witness_OutByteTableRule : (1 ≤ 1 ∧ 1 < 2 ^ 64) ∧ (1 ≤ 2 ^ 64 - 1 ∧ 2 ^ 64 - 1 < 2 ^ 64) := by decide
theorem witness_OutByteAsMessages : 0 + 1 < 2 ^ 64 := by decide
theorem witness_CkUpd64Effect :
    ([0x31, 0x32, 0x33, 0x34, 0x35, 0x36, 0x37, 0x38] : List Byte) =
      (List.range 8).map (fun k => (0x3837363534333231 : Word64).extractLsb' (8 * k) 8) := by decide
theorem witness_payload_length : ([] : List Byte).length < 2 ^ 32 ∧ (List.replicate (2 ^ 32 - 1) (0 : Byte)).length < 2 ^ 32 := by
  rw [List.length_replicate]
  decide
theorem witness_ChunkedUpdateEqualsWhole :
    ∃ t u v, exec (.ckUpdN [1]) State.reset = .next t ∧ exec (.ckUpdN [2]) t = .next u ∧
      exec (.ckUpdN ([1] ++ [2])) State.reset = .next v := ⟨_, _, _, rfl, rfl, rfl⟩
theorem witness_RlNewEffect :
    ([] : List Byte).length = 0 ∧ four.wmax.toNat < (List.replicate 5 (0 : Byte)).length ∧
    (1 ≤ (List.replicate 4 (0 : Byte)).length ∧ (List.replicate 4 (0 : Byte)).length ≤ four.wmax.toNat) := by decide
theorem witness_RlRollEffect : State.reset.rvalid = false ∧ abc.rvalid = true ∧ abc.win[abc.pos.toNat]? = some 0x61 := ⟨rfl, rfl, rfl⟩
theorem witness_rvalid_both : State.reset.rvalid = false ∧ abc.rvalid = true := ⟨rfl, rfl⟩
theorem witness_NoWindow :
    (State.reset.rvalid = false ∧ NeedsWindow .rlGet32 = true) ∧
    ((abcThen .rlGet32).inbox = .packet (encode .rlGet32) :: [] ∧ (abcThen .rlGet32).rvalid = true ∧
      ∃ t r, step (abcThen .rlGet32) = .next t ∧ t.responses = (abcThen .rlGet32).responses ++ [r]) ∧
    (NeedsWindow .ckInit = false ∧ ∃ t r, exec .ckInit State.reset = .next t ∧ t.responses = State.reset.responses ++ [r]) :=
  ⟨⟨rfl, rfl⟩, ⟨rfl, rfl, _, _, rfl, rfl⟩, rfl, _, _, rfl, rfl⟩
theorem witness_RollingAnswersWindowChecksum : abc.Inv ∧ abc.rvalid = true := ⟨abc_inv, rfl⟩
theorem witness_WindowAfterRolling :
    (∃ t, exec (.rlNew [0x61]) four = .next t) ∧ abc.ringWf = true ∧ abc.rvalid = true ∧
      ∃ t, exec (.rlRollN [0x64, 0x65, 0x66, 0x67]) abc = .next t := ⟨⟨_, rfl⟩, abc_ringWf, rfl, _, rfl⟩
theorem witness_ZrOperators :
    State.reset.zr[(0 : ZReg).val] = ⟨z32 0, z64 0⟩ ∧ State.reset.zr[(3 : ZReg).val] = ⟨0x80000000, 0x8000000000000000⟩ := by decide
theorem witness_ReadCommandsArePure : IsRead (.tbRd32 7 0) = true := rfl
theorem witness_Writers : ∃ t, exec (.zrNew 1 0) State.reset = .next t ∧ WritesPair (.zrNew 1 0) = false ∧
    WritesRolling (.zrNew 1 0) = false ∧ (∀ bytes, Instr.zrNew 1 0 ≠ .rlNew bytes) ∧ writesOperator (.zrNew 1 0) ≠ some 0 :=
  ⟨_, rfl, rfl, rfl, by simp, by decide⟩
theorem witness_OtherGroups :
    IsRolling .ckGet32 = false ∧ abc.c32 = State.reset.c32 ∧ abc.c64 = State.reset.c64 ∧ abc.zr = State.reset.zr ∧
      abc.responses = State.reset.responses ∧ (∃ t, exec .ckGet32 abc = .next t) ∧ ∃ t, exec .ckGet32 State.reset = .next t :=
  ⟨rfl, rfl, rfl, rfl, rfl, ⟨_, rfl⟩, _, rfl⟩
theorem witness_UnconstructedContext :
    ∃ s t : State, s.rvalid = false ∧ step s = .next t ∧ t.rvalid = true :=
  ⟨State.reset.withInbox [.packet (encode (.rlNew [0x61]))], _, rfl, rfl, rfl⟩

end Sys2Proof.Tests
end

section
/-! SUPPORT. Words as residues modulo the generator: the polynomial of a word, and the ring map under which `mulx_n`, `reduce_n` and
`mul_n` become multiplications in GF(2)[x] modulo the generator (spec/00_scope.md R11 to R13), at every width. -/

namespace Sys2Proof.Claims

open Sys2Proof.Machine Polynomial

variable {n : Nat} (poly : BitVec n)

/-! ### The polynomial of a word (00_scope.md R11) -/

theorem coeff_polyOf (v : BitVec n) (k : Nat) :
    (polyOf v).coeff k = if k < n ∧ v.getLsbD (n - 1 - k) then 1 else 0 := by
  have term (j : Nat) : (if v.getLsbD (n - 1 - j) then X ^ j else 0 : (ZMod 2)[X]).coeff k =
      if k = j then (if v.getLsbD (n - 1 - j) then 1 else 0) else 0 := by
    split <;> simp [coeff_X_pow]
  simp only [polyOf, finsetSum_coeff, term, Finset.sum_ite_eq, Finset.mem_range, ite_and]

@[simp] theorem polyOf_zero : polyOf 0#n = 0 := by simp [polyOf]

/-- XOR of words is the sum of their polynomials. -/
@[simp] theorem polyOf_xor (u v : BitVec n) : polyOf (u ^^^ v) = polyOf u + polyOf v := by
  ext k
  rw [coeff_add, coeff_polyOf, coeff_polyOf, coeff_polyOf, BitVec.getLsbD_xor]
  by_cases hk : k < n
  · cases u.getLsbD (n - 1 - k) <;> cases v.getLsbD (n - 1 - k) <;> simp [hk, CharTwo.add_self_eq_zero]
  · simp [hk]

theorem degree_polyOf_lt (v : BitVec n) : (polyOf v).degree < n := by
  rw [degree_lt_iff_coeff_zero]
  intro k hk
  rw [coeff_polyOf, if_neg (by omega)]

/-- The shift of `mulx_n` multiplies by x, but for the top coefficient, which it drops (00_scope.md R12). -/
theorem polyOf_ushiftRight_one (v : BitVec n) :
    polyOf (v >>> 1) = X * polyOf v + if v.getLsbD 0 then X ^ n else 0 := by
  rw [← CharTwo.add_eq_iff_eq_add]
  ext k
  rw [coeff_add, coeff_polyOf, BitVec.getLsbD_ushiftRight]
  have top : (if v.getLsbD 0 then X ^ n else 0 : (ZMod 2)[X]).coeff k = if k = n ∧ v.getLsbD 0 then 1 else 0 := by
    split <;> simp [coeff_X_pow, *]
  rw [top]
  cases k with
  | zero =>
    rw [coeff_X_mul_zero, BitVec.getLsbD_of_ge v _ (by omega)]
    rcases Nat.eq_zero_or_pos n with rfl | hn
    · simp
    · simp [hn.ne]
  | succ k =>
    rw [coeff_X_mul, coeff_polyOf]
    rcases lt_trichotomy (k + 1) n with hk | rfl | hk
    · have bit : 1 + (n - 1 - (k + 1)) = n - 1 - k := by omega
      simp [hk, hk.ne, Nat.lt_of_succ_lt hk, bit]
    · simp
    · simp [hk.not_gt, hk.ne', (Nat.le_of_lt_succ hk).not_gt]

/-- The `k + 1` low bits of a word, top bit first: a constant coefficient, then x times the polynomial of the `k` low bits. -/
theorem polyOf_setWidth_succ (a : BitVec n) (k : Nat) :
    polyOf (a.setWidth (k + 1)) = X * polyOf (a.setWidth k) + if a.getLsbD k then 1 else 0 := by
  have bit (j : Nat) (hj : j ∈ Finset.range k) :
      (if (a.setWidth (k + 1)).getLsbD (k + 1 - 1 - (j + 1)) then X ^ (j + 1) else 0 : (ZMod 2)[X]) =
        X * if (a.setWidth k).getLsbD (k - 1 - j) then X ^ j else 0 := by
    have hj : j < k := Finset.mem_range.1 hj
    have index : k - (j + 1) = k - 1 - j := by omega
    have inside : k - 1 - j < k + 1 ∧ k - 1 - j < k := by omega
    simp [index, inside, pow_succ']
  rw [polyOf, Finset.sum_range_succ', Finset.sum_congr rfl bit, ← Finset.mul_sum, polyOf]
  simp

/-! ### Residues modulo the generator -/

theorem generator_monic : (generator poly).Monic := monic_X_pow_add (degree_polyOf_lt poly)

theorem degree_generator : (generator poly).degree = n := by
  rw [generator, degree_add_eq_left_of_degree_lt, degree_X_pow]
  rw [degree_X_pow]
  exact degree_polyOf_lt poly

/-- The residue class of a word's polynomial modulo the generator. -/
noncomputable def residue (v : BitVec n) : AdjoinRoot (generator poly) := AdjoinRoot.mk (generator poly) (polyOf v)

/-- A word is the remainder of every polynomial in its residue class, having degree below that of the generator. -/
theorem polyOf_eq_modByMonic {v : BitVec n} {p : (ZMod 2)[X]} (h : residue poly v = AdjoinRoot.mk (generator poly) p) :
    polyOf v = p %ₘ generator poly := by
  have small : polyOf v %ₘ generator poly = polyOf v := by
    rw [modByMonic_eq_self_iff (generator_monic poly), degree_generator]
    exact degree_polyOf_lt v
  rw [← small]
  exact modByMonic_eq_of_dvd_sub (generator_monic poly) (AdjoinRoot.mk_eq_mk.1 h)

@[simp] theorem residue_zero : residue poly 0#n = 0 := by simp [residue]

@[simp] theorem residue_xor (u v : BitVec n) : residue poly (u ^^^ v) = residue poly u + residue poly v := by
  simp [residue]

/-- `mulx_n` multiplies by x: the XORed constant makes up the dropped x^n, as x^n + poly_n(POLYn_R) is the generator (00_scope.md R12). -/
@[simp] theorem residue_mulx (v : BitVec n) :
    residue poly (mulx poly v) = AdjoinRoot.root (generator poly) * residue poly v := by
  have hpoly : polyOf (mulx poly v) = X * polyOf v + if v.getLsbD 0 then generator poly else 0 := by
    rw [mulx, polyOf_xor, polyOf_ushiftRight_one, generator]
    split <;> simp [add_assoc]
  rw [residue, hpoly, map_add, map_mul, AdjoinRoot.mk_X]
  split <;> simp [residue]

@[simp] theorem residue_mulxIter (k : Nat) (v : BitVec n) :
    residue poly (mulxIter poly k v) = AdjoinRoot.root (generator poly) ^ k * residue poly v := by
  induction k generalizing v with
  | zero => simp
  | succ k ih => rw [mulxIter_succ, ih, residue_mulx, pow_succ, mul_assoc]

/-- The loop of `mul_n` adds to the sum the product of the coefficients still to scan and the current multiple of `b` (00_scope.md R13). -/
theorem residue_mulLoop (a b p : BitVec n) (k : Nat) :
    residue poly (mulLoop poly a k b p) =
      residue poly p + AdjoinRoot.mk (generator poly) (polyOf (a.setWidth k)) * residue poly b := by
  induction k generalizing b p with
  | zero => simp [mulLoop, polyOf]
  | succ k ih =>
    rw [mulLoop, ih, residue_mulx, polyOf_setWidth_succ, map_add, map_mul, AdjoinRoot.mk_X]
    split
    · rw [residue_xor, map_one]
      ring
    · rw [map_zero]
      ring

/-- `mul_n` multiplies residues (00_scope.md R13). -/
@[simp] theorem residue_mul (a b : BitVec n) : residue poly (mul poly a b) = residue poly a * residue poly b := by
  rw [mul, residue_mulLoop, BitVec.setWidth_eq, BitVec.ofNat_eq_ofNat, residue_zero, zero_add]
  rfl

/-! ### The operations as remainders modulo the generator, at every width -/

theorem polyOf_mulx (v : BitVec n) : polyOf (mulx poly v) = (X * polyOf v) %ₘ generator poly :=
  polyOf_eq_modByMonic poly (by rw [residue_mulx, map_mul, AdjoinRoot.mk_X, residue])

theorem polyOf_mulxIter (k : Nat) (v : BitVec n) :
    polyOf (mulxIter poly k v) = (X ^ k * polyOf v) %ₘ generator poly :=
  polyOf_eq_modByMonic poly (by rw [residue_mulxIter, map_mul, map_pow, AdjoinRoot.mk_X, residue])

theorem polyOf_mul (a b : BitVec n) : polyOf (mul poly a b) = (polyOf a * polyOf b) %ₘ generator poly :=
  polyOf_eq_modByMonic poly (by rw [residue_mul, map_mul, residue, residue])

theorem mulxIter_eq_iterate (k : Nat) (v : BitVec n) : mulxIter poly k v = (mulx poly)^[k] v := by
  induction k generalizing v with
  | zero => rfl
  | succ k ih => rw [mulxIter_succ, ih, Function.iterate_succ_apply]

/-! ### The obligations -/

/-- Settles O18: the formulas are the definitions, and `mulx_n` and `reduce_n` are multiplications of residues by x and x^8. -/
theorem mulxIsTimesX : Obligations.MulxIsTimesX :=
  ⟨fun _ => rfl, fun _ => rfl,
    fun b => ⟨mulxIter_eq_iterate poly32 8 (b.setWidth 32), mulxIter_eq_iterate poly64 8 (b.setWidth 64)⟩,
    polyOf_mulx poly32, polyOf_mulx poly64,
    fun b => ⟨polyOf_mulxIter poly32 8 (b.setWidth 32), polyOf_mulxIter poly64 8 (b.setWidth 64)⟩⟩

/-- Settles O19: `mul_n` multiplies residues, at both widths. -/
theorem mulIsProductModGenerator : Obligations.MulIsProductModGenerator :=
  ⟨polyOf_mul poly32, polyOf_mul poly64⟩

end Sys2Proof.Claims
end

section
/-! SUPPORT. The state after reset, and the two rules that fix the contents of the table ROMs (spec/10_state.md R32, R30; 40_crc32c_engine.md
R101, R102; 41_crc64xz_engine.md R121, R122). -/

namespace Sys2Proof.Claims

open Sys2Proof.Machine

variable {n : Nat} (poly : BitVec n)

/-- Table 0 holds the reductions: `mulx_n` eight times (R101, R121). -/
theorem table_zero_eq_iterate (b : Byte) : table poly 0 b = (mulx poly)^[8] (b.setWidth n) :=
  mulxIter_eq_iterate poly 8 (b.setWidth n)

/-- Each next table feeds the low byte of an entry of the one before it through table 0 (R102, R122). -/
theorem table_succ (i : Nat) (b : Byte) :
    table poly (i + 1) b = (table poly i b >>> 8) ^^^ table poly 0 ((table poly i b).extractLsb' 0 8) := by
  have low : (table poly i b).extractLsb' 0 8 = (table poly i b).setWidth 8 := by
    ext
    simp
  rw [low]
  rfl

/-- Settles O12: the registers hold their reset values by definition, and the ROMs follow the two rules for `table` at both widths. -/
theorem resetValues : Obligations.ResetValues :=
  ⟨rfl, rfl, State.getZr_reset, rfl, rfl,
    fun b => ⟨table_zero_eq_iterate poly32 b, table_zero_eq_iterate poly64 b⟩,
    fun i b => ⟨table_succ poly32 i b, table_succ poly64 i b⟩⟩

end Sys2Proof.Claims
end

section
/-! SUPPORT. The decoder's layer of facts: the row of an opcode number, the command of a row's header, and for each format what its operand
decoder rejects (spec/30_encoding.md R72 to R77). -/

namespace Sys2Proof

open Sys2Proof.Claims

/-! ### The opcode map (30_encoding.md R76) -/

@[simp] theorem Opcode.ofCode_code (o : Opcode) : Opcode.ofCode o.code = some o := by
  cases o <;> rfl

theorem Opcode.ofCode_eq_some_iff {c : Byte} {o : Opcode} : Opcode.ofCode c = some o ↔ c = o.code := by
  constructor
  · intro h
    unfold ofCode at h
    have found := List.find?_some h
    exact (beq_iff_eq.1 found).symm
  · rintro rfl
    exact ofCode_code o

@[simp] theorem Opcode.code_inj {o o' : Opcode} : o.code = o'.code ↔ o = o' := by
  rw [← ofCode_eq_some_iff, ofCode_code, Option.some_inj]

theorem Opcode.ofCode_eq_none_iff {c : Byte} : Opcode.ofCode c = none ↔ ∀ o : Opcode, c ≠ o.code := by
  simp only [Option.eq_none_iff_forall_ne_some, ne_eq, ofCode_eq_some_iff]

theorem fieldOp_and (h m : Word) : fieldOp (h &&& m) = fieldOp h &&& fieldOp m := BitVec.extractLsb'_and

/-- A header that matches a row carries the row's opcode: the mask covers bits 31:24 (R76). -/
theorem fieldOp_of_match {h : Word} {o : Opcode} (hm : h &&& o.mask = o.matchWord) : fieldOp h = o.code := by
  have covers : fieldOp o.mask = BitVec.allOnes 8 := by cases o <;> rfl
  have carries : fieldOp o.matchWord = o.code := by cases o <;> rfl
  rw [← carries, ← hm, fieldOp_and, covers, BitVec.and_allOnes]

/-- A header that matches a row is decoded by the row's operand form (R70, R76). -/
theorem decode_of_match {h : Word} {o : Opcode} (ext : List Word) (hm : h &&& o.mask = o.matchWord) :
    decode ⟨h, ext⟩ = decodeOperands o h ext := by
  simp [decode, fieldOp_of_match hm, hm]

/-- The four operand forms: N, I, I with the high word 0, and P, whose command carries the payload (R73 to R75). -/
theorem decodeOperands_cases (o : Opcode) (h : Word) (ext : List Word) :
    (o.format = .noExt ∧ ∃ i, decodeOperands o h ext = decodeNoExt ext i) ∨
    (o.format = .imm ∧ o ≠ .ckWrs32 ∧ ∃ mk, decodeOperands o h ext = decodeImm ext mk) ∨
    (o = .ckWrs32 ∧ decodeOperands o h ext = decodeImmLow ext .ckWrs32) ∨
    (o.format = .payload ∧ ∃ mk, (∀ bytes, (mk bytes).payload = bytes) ∧ decodeOperands o h ext = decodePayload ext mk) := by
  cases o with
  | ckUpd64 | ckWrs64 | zrNew => exact .inr (.inl ⟨rfl, by decide, _, rfl⟩)
  | ckWrs32 => exact .inr (.inr (.inl ⟨rfl, rfl⟩))
  | ckUpdN | rlNew | rlRollN => exact .inr (.inr (.inr ⟨rfl, _, fun _ => rfl, rfl⟩))
  | ckInit | ckUpd8 | ckGet32 | ckGet64 | ckRds32 | ckRds64 | tbRd32 | tbRd64 | rlRoll | rlGet32 | rlGet64 | rlRdob32
  | rlRdob64 | zrMul | zrApply | zrRd32 | zrRd64 => exact .inl ⟨rfl, _, rfl⟩

/-! ### Formats N and I (30_encoding.md R73, R74) -/

@[simp] theorem decodeImm_pair (lo hi : Word) (mk : Word64 → Instr) : decodeImm [lo, hi] mk = .ok (mk (hi ++ lo)) := rfl

@[simp] theorem decodeImmLow_pair (lo hi : Word) (mk : Word → Instr) :
    decodeImmLow [lo, hi] mk = if hi = 0 then .ok (mk lo) else .error .highWord := rfl

theorem decodeImm_of_length_ne {ext : List Word} (h : ext.length ≠ 2) (mk : Word64 → Instr) :
    decodeImm ext mk = .error .wordCount := by
  unfold decodeImm
  split
  · exact absurd rfl h
  · rfl

theorem decodeImmLow_of_length_ne {ext : List Word} (h : ext.length ≠ 2) (mk : Word → Instr) :
    decodeImmLow ext mk = .error .wordCount := by
  unfold decodeImmLow
  split
  · exact absurd rfl h
  · rfl

theorem decodeNoExt_error_iff (p : Packet) (i : Instr) :
    (∃ e, decodeNoExt p.ext i = .error e) ↔ WrongCount .noExt p := by
  obtain ⟨h, _ | ⟨a, ws⟩⟩ := p <;> simp [decodeNoExt, WrongCount, wordCount]

theorem wrongCount_imm_iff (p : Packet) : WrongCount .imm p ↔ p.ext.length ≠ 2 := by
  simp only [WrongCount, wordCount]
  omega

theorem decodeImm_error_iff (p : Packet) (mk : Word64 → Instr) :
    (∃ e, decodeImm p.ext mk = .error e) ↔ WrongCount .imm p := by
  rw [wrongCount_imm_iff]
  by_cases hl : p.ext.length = 2
  · obtain ⟨lo, hi, he⟩ := List.length_eq_two.1 hl
    simp [he]
  · simp [hl, decodeImm_of_length_ne]

theorem decodeImmLow_error_iff (p : Packet) (mk : Word → Instr) :
    (∃ e, decodeImmLow p.ext mk = .error e) ↔ WrongCount .imm p ∨ ∃ hi, p.ext[1]? = some hi ∧ hi ≠ 0 := by
  rw [wrongCount_imm_iff]
  by_cases hl : p.ext.length = 2
  · obtain ⟨lo, hi, he⟩ := List.length_eq_two.1 hl
    by_cases hz : hi = 0#32 <;> simp [he, hz]
  · simp [hl, decodeImmLow_of_length_ne]

/-- The message bytes of a 64-bit immediate are its bytes in order, byte 0 first (42_checksummer.md R143). -/
theorem messageBytes_eq_map (imm : Word64) : Machine.messageBytes imm = (List.range 8).map (Machine.byteAt imm) := rfl

/-! ### Format P (30_encoding.md R75) -/

/-- Byte `k` of the payload words is lane `k mod 4` of word `floor(k/4)`. -/
theorem getElem?_flatMap_wordBytes (ws : List Word) (k : Nat) :
    (ws.flatMap wordBytes)[k]? = ws[k / 4]?.map fun v => v.extractLsb' (8 * (k % 4)) 8 := by
  induction ws generalizing k with
  | nil => simp
  | cons w ws ih =>
    match k with
    | 0 | 1 | 2 | 3 => rfl
    | k + 4 =>
      have skip : ((w :: ws).flatMap wordBytes)[k + 4]? = (ws.flatMap wordBytes)[k]? := rfl
      rw [skip, ih, Nat.add_mod_right, Nat.add_div_right k (by decide), List.getElem?_cons_succ]

@[simp] theorem length_flatMap_wordBytes (ws : List Word) : (ws.flatMap wordBytes).length = 4 * ws.length := by
  simp [List.length_flatMap, wordBytes, mul_comm]

/-- The padding lanes `LEN mod 4 .. 3` of the last payload word are 0 (R75). -/
def PaddingZero (len : Nat) (ws : List Word) : Prop :=
  ∀ last lane, ws.getLast? = some last → len % 4 ≠ 0 → len % 4 ≤ lane → lane < 4 → last.extractLsb' (8 * lane) 8 = 0

/-- What the decoder checks of the bytes from LEN on is the padding of the last word: no word lies wholly past LEN. -/
theorem all_drop_eq_zero_iff_paddingZero {len : Nat} {ws : List Word} (hw : ws.length = payloadWords len) :
    ((ws.flatMap wordBytes).drop len).all (fun b => b == 0) = true ↔ PaddingZero len ws := by
  simp only [List.all_eq_true, beq_iff_eq, List.mem_iff_getElem?, List.getElem?_drop, getElem?_flatMap_wordBytes,
    Option.map_eq_some_iff, PaddingZero, List.getLast?_eq_getElem?]
  unfold payloadWords at hw
  constructor
  · intro h last lane hlast hlen hlane hlt
    have index : len + (lane - len % 4) = 4 * (ws.length - 1) + lane := by omega
    refine h _ ⟨lane - len % 4, last, ?_, ?_⟩
    · rw [index, ← hlast]
      congr 1
      omega
    · rw [index, Nat.mul_add_mod, Nat.mod_eq_of_lt hlt]
  · rintro h b ⟨j, v, hv, rfl⟩
    obtain ⟨hin, -⟩ := List.getElem?_eq_some_iff.1 hv
    have lastWord : (len + j) / 4 = ws.length - 1 := by omega
    exact h v ((len + j) % 4) (lastWord ▸ hv) (by omega) (by omega) (by omega)

section

variable {len : Word} {ws : List Word} (mk : List Byte → Instr)

@[simp] theorem decodePayload_nil : decodePayload [] mk = .error .wordCount := rfl

theorem decodePayload_of_length_ne (hw : ws.length ≠ payloadWords len.toNat) :
    decodePayload (len :: ws) mk = .error .wordCount := by
  simp [decodePayload, hw]

/-- With the right word count and zero padding the command takes the first LEN bytes (R75). -/
theorem decodePayload_of_paddingZero (hw : ws.length = payloadWords len.toNat) (hz : PaddingZero len.toNat ws) :
    decodePayload (len :: ws) mk = .ok (mk ((ws.flatMap wordBytes).take len.toNat)) := by
  simp only [decodePayload, hw, (all_drop_eq_zero_iff_paddingZero hw).2 hz, if_true]

theorem decodePayload_of_not_paddingZero (hw : ws.length = payloadWords len.toNat) (hz : ¬ PaddingZero len.toNat ws) :
    decodePayload (len :: ws) mk = .error .padding := by
  rw [← all_drop_eq_zero_iff_paddingZero hw] at hz
  simp only [decodePayload, hw, hz, if_true, if_false, Bool.false_eq_true]

theorem decodePayload_cons_ok_iff {i : Instr} :
    decodePayload (len :: ws) mk = .ok i ↔
      ws.length = payloadWords len.toNat ∧ PaddingZero len.toNat ws ∧ mk ((ws.flatMap wordBytes).take len.toNat) = i := by
  by_cases hw : ws.length = payloadWords len.toNat
  · by_cases hz : PaddingZero len.toNat ws
    · simp [decodePayload_of_paddingZero mk hw hz, hw, hz]
    · simp [decodePayload_of_not_paddingZero mk hw hz, hz]
  · simp [decodePayload_of_length_ne mk hw, hw]

end

end Sys2Proof
end

section
/-! SUPPORT. The formats of 30_encoding.md: the illegal packets are those the decoder rejects, the step on a decoded packet, and the settled
obligations of R70, R74, R75 and R77. -/

namespace Sys2Proof.Claims

open Sys2Proof.Machine

/-! ### The illegal packets are those that do not decode (30_encoding.md R77) -/

/-- For a packet with its LEN word and the right word count, R77 (d) is the failure of the padding condition. -/
theorem nonzeroPadding_cons_iff {h len : Word} {ws : List Word} (hw : ws.length = payloadWords len.toNat) :
    NonzeroPadding ⟨h, len :: ws⟩ ↔ ¬ PaddingZero len.toNat ws := by
  cases ws with
  | nil =>
    have aligned : len.toNat % 4 = 0 := by
      rw [payloadWords, List.length_nil] at hw
      omega
    simp [NonzeroPadding, PaddingZero, aligned]
  | cons w ws => simp [NonzeroPadding, PaddingZero, List.getLast?_cons_cons]

theorem wrongCount_payload_cons_iff {h len : Word} {ws : List Word} :
    WrongCount .payload ⟨h, len :: ws⟩ ↔ ws.length ≠ payloadWords len.toNat := by
  have count : 1 + (ws.length + 1) = 2 + (len.toNat + 3) / 4 ↔ ws.length = payloadWords len.toNat := by
    rw [payloadWords]
    omega
  simp [WrongCount, wordCount, count]

theorem decodePayload_error_iff (p : Packet) (mk : List Byte → Instr) :
    (∃ e, decodePayload p.ext mk = .error e) ↔ WrongCount .payload p ∨ NonzeroPadding p := by
  obtain ⟨h, _ | ⟨len, ws⟩⟩ := p
  · simp [WrongCount]
  · rw [wrongCount_payload_cons_iff]
    by_cases hw : ws.length = payloadWords len.toNat
    · rw [nonzeroPadding_cons_iff hw]
      by_cases hz : PaddingZero len.toNat ws
      · simp [decodePayload_of_paddingZero mk hw hz, hw, hz]
      · simp [decodePayload_of_not_paddingZero mk hw hz, hz]
    · simp [decodePayload_of_length_ne mk hw, hw]

/-- An operand form rejects exactly the packets of causes (c), (d) and (e) (R77). -/
theorem decodeOperands_error_iff (o : Opcode) (p : Packet) :
    (∃ e, decodeOperands o p.head p.ext = .error e) ↔
      WrongCount o.format p ∨ (o.format = .payload ∧ NonzeroPadding p) ∨ (o = .ckWrs32 ∧ ∃ hi, p.ext[1]? = some hi ∧ hi ≠ 0) := by
  obtain ⟨hf, i, hd⟩ | ⟨hf, ho, mk, hd⟩ | ⟨rfl, hd⟩ | ⟨hf, mk, -, hd⟩ := decodeOperands_cases o p.head p.ext
  · have ho : o ≠ .ckWrs32 := by rintro rfl; cases hf
    simp [hd, decodeNoExt_error_iff, hf, ho]
  · simp [hd, decodeImm_error_iff, hf, ho]
  · simp [hd, decodeImmLow_error_iff, Opcode.format]
  · have ho : o ≠ .ckWrs32 := by rintro rfl; cases hf
    simp [hd, decodePayload_error_iff, hf, ho]

/-- The decoder rejects exactly the packets of the five causes (R77). -/
theorem decode_error_iff_illegalPacket (p : Packet) : (∃ e, decode p = .error e) ↔ IllegalPacket p := by
  by_cases known : ∃ o : Opcode, fieldOp p.head = o.code
  · obtain ⟨o, ho⟩ := known
    by_cases hm : p.head &&& o.mask = o.matchWord
    · simp [decode, IllegalPacket, ho, hm, decodeOperands_error_iff]
    · simp [decode, IllegalPacket, ho, hm]
  · have unknown : ∀ o : Opcode, fieldOp p.head ≠ o.code := not_exists.1 known
    simp [decode, IllegalPacket, Opcode.ofCode_eq_none_iff.2 unknown, unknown]

/-- A packet that is not illegal is one of the 24 commands (R77). -/
theorem exists_decode_ok_of_not_illegalPacket {p : Packet} (h : ¬ IllegalPacket p) : ∃ i, decode p = .ok i := by
  cases hd : decode p with
  | ok i => exact ⟨i, rfl⟩
  | error e => exact absurd ((decode_error_iff_illegalPacket p).1 ⟨e, hd⟩) h

/-! ### The step on a packet (30_encoding.md R70) -/

section

variable {s : State} {p : Packet} {rest : List HostAction}

theorem step_of_decode_ok (hs : s.inbox = .packet p :: rest) {i : Instr} (hd : decode p = .ok i) :
    step s = exec i (s.withInbox rest) := by
  simp [step, hs, hd]

theorem step_of_decode_error (hs : s.inbox = .packet p :: rest) {e : Illegal} (hd : decode p = .error e) :
    step s = raiseError (s.withInbox rest) .eIllegal := by
  simp [step, hs, hd]

end

/-! ### The payload of a decoded packet (30_encoding.md R75) -/

/-- The headers of the three payload commands select a row of format P. -/
theorem exists_payload_row {h : Word} (hh : h = 0x03000000 ∨ h = 0x20000000 ∨ h = 0x22000000) :
    ∃ o : Opcode, o.format = .payload ∧ h &&& o.mask = o.matchWord := by
  obtain rfl | rfl | rfl := hh
  · exact ⟨.ckUpdN, by decide⟩
  · exact ⟨.rlNew, by decide⟩
  · exact ⟨.rlRollN, by decide⟩

/-- A header of a payload command is decoded by the payload form, whose command carries the payload. -/
theorem decode_of_payload_row {o : Opcode} {h : Word} (hf : o.format = .payload) (hm : h &&& o.mask = o.matchWord)
    (ext : List Word) : ∃ mk, (∀ bytes, (mk bytes).payload = bytes) ∧ decode ⟨h, ext⟩ = decodePayload ext mk := by
  rw [decode_of_match ext hm]
  obtain ⟨hf', -⟩ | ⟨hf', -⟩ | ⟨rfl, -⟩ | ⟨-, hd⟩ := decodeOperands_cases o h ext
  · simp [hf] at hf'
  · simp [hf] at hf'
  · simp [Opcode.format] at hf
  · exact hd

/-! ### The obligations -/

/-- Settles O6: the bytes taken are the lanes of the payload words in order, and the padding check is that of the last word. -/
theorem payloadByteLanes : Obligations.PayloadByteLanes := by
  intro h len ws i hh
  obtain ⟨o, hf, hm⟩ := exists_payload_row hh
  constructor
  · obtain ⟨mk, -, hd⟩ := decode_of_payload_row hf hm []
    rw [hd, decodePayload_nil]
  · intro hi
    obtain ⟨mk, hpay, hd⟩ := decode_of_payload_row hf hm (len :: ws)
    obtain ⟨hw, hpad, rfl⟩ := (decodePayload_cons_ok_iff mk).1 (hd ▸ hi)
    rw [hpay]
    refine ⟨?_, hw, fun k hk => ?_, hpad⟩
    · rw [List.length_take, length_flatMap_wordBytes, hw, payloadWords]
      omega
    · rw [List.getElem?_take_of_lt hk, getElem?_flatMap_wordBytes]

/-- Settles O8: the decoder rejects exactly the packets of the five causes, and the step answers what it rejects with `(E_ILLEGAL, 0)`. -/
theorem illegalPacketsHaveNoEffect : Obligations.IllegalPacketsHaveNoEffect := by
  intro s p rest hs
  constructor
  · intro illegal
    obtain ⟨e, hd⟩ := (decode_error_iff_illegalPacket p).2 illegal
    exact step_of_decode_error hs hd
  · intro legal
    obtain ⟨i, hd⟩ := exists_decode_ok_of_not_illegalPacket legal
    exact ⟨i, hd, step_of_decode_ok hs hd⟩

theorem match_zrNew (zd : ZReg) :
    (0x30000000 ||| (BitVec.ofNat 32 zd.val <<< 20)) &&& Opcode.zrNew.mask = Opcode.zrNew.matchWord := by
  revert zd
  decide

theorem fieldZd_zrNew (zd : ZReg) : fieldZd (0x30000000 ||| (BitVec.ofNat 32 zd.val <<< 20)) = zd := by
  revert zd
  decide

/-- Settles O5: the four headers match the rows of the four Format I commands, whose operand form takes two words, low word first. -/
theorem immediateLowWordFirst : Obligations.ImmediateLowWordFirst := by
  intro lo hi zd
  have upd64 (ext : List Word) : decode ⟨0x02000000, ext⟩ = decodeOperands .ckUpd64 0x02000000 ext := decode_of_match ext (by decide)
  have wrs32 (ext : List Word) : decode ⟨0x08000000, ext⟩ = decodeOperands .ckWrs32 0x08000000 ext := decode_of_match ext (by decide)
  have wrs64 (ext : List Word) : decode ⟨0x09000000, ext⟩ = decodeOperands .ckWrs64 0x09000000 ext := decode_of_match ext (by decide)
  have zrNew (ext : List Word) := decode_of_match ext (match_zrNew zd)
  refine ⟨fun h ext hmem hl => ?_, ?_, fun k hk => ?_, ?_, fun hne => ?_, ?_, ?_⟩
  · simp only [List.mem_cons, List.not_mem_nil, or_false] at hmem
    obtain rfl | rfl | rfl | rfl := hmem
    · rw [upd64, decodeOperands, decodeImm_of_length_ne hl]
    · rw [wrs32, decodeOperands, decodeImmLow_of_length_ne hl]
    · rw [wrs64, decodeOperands, decodeImm_of_length_ne hl]
    · rw [zrNew, decodeOperands, decodeImm_of_length_ne hl]
  · rw [upd64, decodeOperands, decodeImm_pair]
  · rw [messageBytes_eq_map, List.getElem?_map, List.getElem?_range hk, Option.map_some, byteAt]
  · rw [wrs32, decodeOperands, decodeImmLow_pair, if_pos rfl]
  · rw [wrs32, decodeOperands, decodeImmLow_pair, if_neg hne]
  · rw [wrs64, decodeOperands, decodeImm_pair]
  · rw [zrNew, decodeOperands, decodeImm_pair, fieldZd_zrNew]

/-- Settles O7: the step's two answers to a packet, by what the decoder makes of it. -/
theorem stepRunsDecodedCommand : Obligations.StepRunsDecodedCommand :=
  fun _ _ _ hs => ⟨fun _ hd => step_of_decode_ok hs hd, fun _ hd => step_of_decode_error hs hd⟩

end Sys2Proof.Claims
end

section
/-! SUPPORT. The engine's tables and steps are linear over XOR, and a state is fed byte by byte as a sum of table entries: the slice-by-8
step is eight byte steps, at every width from 8 to 64 (spec/40_crc32c_engine.md R102 to R106, spec/41_crc64xz_engine.md R122 to R125). -/

namespace Sys2Proof.Machine

variable {n : Nat} (poly : BitVec n)

/-! ### Linearity over XOR -/

theorem mulx_xor (u v : BitVec n) : mulx poly (u ^^^ v) = mulx poly u ^^^ mulx poly v := by
  have constant (p q : Bool) : (if p ^^ q then poly else 0) = (if p then poly else 0) ^^^ (if q then poly else 0) := by
    cases p <;> cases q <;> simp
  rw [mulx, BitVec.ushiftRight_xor_distrib, BitVec.getLsbD_xor, constant, mulx, mulx]
  ac_rfl

theorem mulxIter_xor (k : Nat) (u v : BitVec n) : mulxIter poly k (u ^^^ v) = mulxIter poly k u ^^^ mulxIter poly k v := by
  induction k generalizing u v with
  | zero => rfl
  | succ k ih => rw [mulxIter_succ, mulx_xor, ih, mulxIter_succ, mulxIter_succ]

theorem reduce_xor (a b : Byte) : reduce poly (a ^^^ b) = reduce poly a ^^^ reduce poly b := by
  rw [reduce, BitVec.setWidth_xor, mulxIter_xor, reduce, reduce]

/-- The byte step is linear in the state and the byte together (40 R104, 41 R124). -/
theorem byteStep_xor (s s' : BitVec n) (b b' : Byte) :
    byteStep poly (s ^^^ s') (b ^^^ b') = byteStep poly s b ^^^ byteStep poly s' b' := by
  simp only [byteStep, table, BitVec.setWidth_xor, BitVec.ushiftRight_xor_distrib, reduce_xor]
  ac_rfl

/-- Each next table is a byte step with a zero byte on the one before it (40 R102, 41 R122). -/
theorem byteStep_table_zero (i : Nat) (b : Byte) : byteStep poly (table poly i b) 0#8 = table poly (i + 1) b := by
  simp [byteStep, table]

/-- Every table is linear in its index. -/
theorem table_xor (i : Nat) (a b : Byte) : table poly i (a ^^^ b) = table poly i a ^^^ table poly i b := by
  induction i with
  | zero => exact reduce_xor poly a b
  | succ i ih => simpa [byteStep_table_zero, ← ih] using byteStep_xor poly (table poly i a) (table poly i b) 0#8 0#8

/-- Entry 0 of every table is 0. -/
@[simp] theorem table_zero_byte (i : Nat) : table poly i 0#8 = 0#n := by
  simpa using table_xor poly i 0#8 0#8

/-! ### A state as a sum of table entries -/

/-- A summand `T[i][x]` of the state moves on by one table per byte fed. -/
theorem upd_table_xor (i : Nat) (x : Byte) (s : BitVec n) (d : List Byte) :
    upd poly (table poly i x ^^^ s) d = table poly (i + d.length) x ^^^ upd poly s d := by
  induction d generalizing i s with
  | nil => rfl
  | cons b d ih =>
    have step : byteStep poly (table poly i x ^^^ s) b = table poly (i + 1) x ^^^ byteStep poly s b := by
      simpa [byteStep_table_zero] using byteStep_xor poly (table poly i x) s 0#8 b
    rw [upd_cons, step, ih, upd_cons, List.length_cons, Nat.add_assoc, Nat.add_comm 1]

/-- The first byte contributes its entry of the table for the number of bytes that follow it, and the state moves down by a byte. -/
theorem upd_cons_eq_table (hn : 8 ≤ n) (s : BitVec n) (b : Byte) (d : List Byte) :
    upd poly s (b :: d) = table poly d.length (s.setWidth 8 ^^^ b) ^^^ upd poly (s >>> 8) d := by
  have low : (s ^^^ b.setWidth n).setWidth 8 = s.setWidth 8 ^^^ b := by
    rw [BitVec.setWidth_xor, BitVec.setWidth_setWidth_of_le _ hn, BitVec.setWidth_eq]
  rw [upd_cons, byteStep, low, BitVec.xor_comm, upd_table_xor, Nat.zero_add]

/-! ### The bytes of the loaded word -/

theorem byteAt_xor (x y : Word64) (j : Nat) : byteAt (x ^^^ y) j = byteAt x j ^^^ byteAt y j := BitVec.extractLsb'_xor

theorem byteAt_setWidth (s : BitVec n) {j : Nat} (hj : j < 8) : byteAt (s.setWidth 64) j = (s >>> (8 * j)).setWidth 8 := by
  rw [byteAt, BitVec.extractLsb'_setWidth_of_le (by omega)]
  ext
  simp

theorem byteAt_le64_zero (b : Byte) (d : List Byte) : byteAt (le64 (b :: d)) 0 = b := by
  ext i hi
  have inside : i < 64 := by omega
  simp [byteAt, hi, inside]

theorem byteAt_le64_succ (b : Byte) (d : List Byte) {j : Nat} (hj : j + 1 < 8) :
    byteAt (le64 (b :: d)) (j + 1) = byteAt (le64 d) j := by
  ext i hi
  have inside : 8 * (j + 1) + i < 64 ∧ 8 * j + i < 64 := by omega
  have past : ¬ 8 * (j + 1) + i < 8 := by omega
  have outside : b.getLsbD (8 * (j + 1) + i) = false := BitVec.getLsbD_of_ge b _ (by omega)
  have shifted : 8 * (j + 1) + i - 8 = 8 * j + i := by omega
  simp [byteAt, inside, past, shifted, outside]

/-- Byte `j` of the packed sequence is element `j` (00_scope.md R15). -/
theorem byteAt_le64 {d : List Byte} {j : Nat} (hj : j < 8) (hd : j < d.length) : byteAt (le64 d) j = d[j] := by
  induction d generalizing j with
  | nil => simp at hd
  | cons b d ih =>
    cases j with
    | zero => exact byteAt_le64_zero b d
    | succ j => rw [byteAt_le64_succ b d hj, ih (by omega) (by simpa using hd), List.getElem_cons_succ]

/-- The slice step is eight byte steps: both are the sum of the eight table entries, and no state is left after eight bytes (40 R106). -/
theorem sliceStep_eq_upd (hn : 8 ≤ n) (hn' : n ≤ 64) (s : BitVec n) {d : List Byte} (hd : d.length = 8) :
    sliceStep poly s d = upd poly s d := by
  match d, hd with
  | [d0, d1, d2, d3, d4, d5, d6, d7], _ =>
    have gone : s >>> 64 = 0 := BitVec.ushiftRight_eq_zero hn'
    simp only [sliceStep, sliceWord, byteAt_xor, upd_cons_eq_table poly hn, ← BitVec.shiftRight_add]
    simp [byteAt_setWidth, byteAt_le64, gone, BitVec.xor_assoc, -le64_cons]

end Sys2Proof.Machine
end

section
/-! SUPPORT. The header word as an OR of shifted fields, its fields read back (spec/30_encoding.md R72). -/

namespace Sys2Proof

variable (o : Opcode) (zd za zb : ZReg) (ti : TabIx) (b : Byte)

/-- The fields of a header word stand at their positions (R72). -/
theorem header_eq_or :
    header o zd za zb ti b =
      (o.code.setWidth 32 <<< 24) ||| (BitVec.ofNat 32 zd.val <<< 20) ||| (BitVec.ofNat 32 za.val <<< 16) |||
        (BitVec.ofNat 32 zb.val <<< 12) ||| (BitVec.ofNat 32 ti.val <<< 8) ||| b.setWidth 32 := by
  have reg (z : ZReg) : (BitVec.ofNat 2 z.val).setWidth 32 = BitVec.ofNat 32 z.val :=
    BitVec.setWidth_ofNat_of_le_of_lt (by decide) z.isLt
  have tab : (BitVec.ofNat 3 ti.val).setWidth 32 = BitVec.ofNat 32 ti.val :=
    BitVec.setWidth_ofNat_of_le_of_lt (by decide) ti.isLt
  rw [← BitVec.setWidth_eq (header o zd za zb ti b)]
  simp only [header, BitVec.setWidth_append_eq_shiftLeft_setWidth_or, BitVec.shiftLeft_or_distrib, reg, tab]
  simp [← BitVec.shiftLeft_add]

@[simp] theorem fieldB_header : fieldB (header o zd za zb ti b) = b := BitVec.extractLsb'_append_eq_right

@[simp] theorem fieldTi_header : fieldTi (header o zd za zb ti b) = ti := by
  rw [fieldTi, header, BitVec.extractLsb'_append_eq_of_le (by decide), BitVec.extractLsb'_append_eq_right]
  ext
  simp

end Sys2Proof
end

section
/-! SUPPORT. The CRC-32C engine's settled obligations: the slice law and the table read commands (spec/40_crc32c_engine.md R106, R111;
spec/41_crc64xz_engine.md R131). -/

namespace Sys2Proof.Claims

open Sys2Proof.Machine

/-- Settles O23: both sides are the sum of the eight table entries, for a state of 32 bits. -/
theorem sliceIsEightByteSteps32 : Obligations.SliceIsEightByteSteps32 :=
  fun s _ hd => sliceStep_eq_upd poly32 (by decide) (by decide) s hd

theorem decode_tbRd32 (ti : TabIx) (b : Byte) : decode ⟨header .tbRd32 0 0 0 ti b, []⟩ = .ok (.tbRd32 ti b) := by
  have row : header .tbRd32 0 0 0 ti b &&& Opcode.tbRd32.mask = Opcode.tbRd32.matchWord := Laws.HeaderMatchesRow.tbRd32 ti b
  rw [decode_of_match [] row, decodeOperands, decodeNoExt, fieldTi_header, fieldB_header]

theorem decode_tbRd64 (ti : TabIx) (b : Byte) : decode ⟨header .tbRd64 0 0 0 ti b, []⟩ = .ok (.tbRd64 ti b) := by
  have row : header .tbRd64 0 0 0 ti b &&& Opcode.tbRd64.mask = Opcode.tbRd64.matchWord := Laws.HeaderMatchesRow.tbRd64 ti b
  rw [decode_of_match [] row, decodeOperands, decodeNoExt, fieldTi_header, fieldB_header]

/-- Settles O40: the two header words are those of the encoder, whose fields the decoder reads back, and every table maps 0 to 0. -/
theorem tableRead : Obligations.TableRead := by
  intro s ti b
  have head32 : header .tbRd32 0 0 0 ti b = 0x10000000 ||| (BitVec.ofNat 32 ti.val <<< 8) ||| b.setWidth 32 := by
    simp [header_eq_or, Opcode.code]
  have head64 : header .tbRd64 0 0 0 ti b = 0x11000000 ||| (BitVec.ofNat 32 ti.val <<< 8) ||| b.setWidth 32 := by
    simp [header_eq_or, Opcode.code]
  rw [← head32, ← head64]
  exact ⟨decode_tbRd32 ti b, decode_tbRd64 ti b, rfl, rfl, table_zero_byte poly32 ti, table_zero_byte poly64 ti⟩

end Sys2Proof.Claims
end

section
/-! SUPPORT. A multi-byte update by slice steps and byte steps is the fold of the byte step, at every width from 8 to 64
(spec/42_checksummer.md R144, spec/40_crc32c_engine.md R107, spec/41_crc64xz_engine.md R127). -/

namespace Sys2Proof.Machine

variable {n : Nat} (poly : BitVec n)

/-- Slice steps over the first `8 k` bytes and byte steps over the rest feed the whole sequence. -/
theorem sliceRun_eq_upd (hn : 8 ≤ n) (hn' : n ≤ 64) (k : Nat) (s : BitVec n) {bytes : List Byte} (h : 8 * k ≤ bytes.length) :
    sliceRun poly k s bytes = upd poly s bytes := by
  induction k generalizing s bytes with
  | zero => rfl
  | succ k ih =>
    have full : (bytes.take 8).length = 8 := List.length_take_of_le (by omega)
    have enough : 8 * k ≤ (bytes.drop 8).length := by
      rw [List.length_drop]
      omega
    rw [sliceRun_succ, ih _ enough, sliceStep_eq_upd poly hn hn' s full, ← upd_append, List.take_append_drop]

theorem feed_eq_upd (hn : 8 ≤ n) (hn' : n ≤ 64) (s : BitVec n) (bytes : List Byte) : feed poly s bytes = upd poly s bytes :=
  sliceRun_eq_upd poly hn hn' _ s (Nat.mul_div_le bytes.length 8)

@[simp] theorem feed32_eq_upd32 (s : BitVec 32) (bytes : List Byte) : feed32 s bytes = upd32 s bytes :=
  feed_eq_upd poly32 (by decide) (by decide) s bytes

@[simp] theorem feed64_eq_upd64 (s : BitVec 64) (bytes : List Byte) : feed64 s bytes = upd64 s bytes :=
  feed_eq_upd poly64 (by decide) (by decide) s bytes

end Sys2Proof.Machine
end

section
/-! SUPPORT. The extension words the encoder writes, read back by the operand forms of the decoder (spec/30_encoding.md R74, R75). -/

namespace Sys2Proof

/-- An immediate is read back from its two words (R74). -/
@[simp] theorem decodeImm_wordsOfImm (v : Word64) (mk : Word64 → Instr) : decodeImm (wordsOfImm v) mk = .ok (mk v) := by
  have joined : v.extractLsb' 32 32 ++ v.extractLsb' 0 32 = v := by
    rw [BitVec.extractLsb'_append_extractLsb'_eq_extractLsb' (by decide)]
    exact BitVec.extractLsb'_eq_self
  rw [wordsOfImm, decodeImm_pair, joined]

/-- The lanes of a payload word are the bytes it is made of (R75). -/
@[simp] theorem wordBytes_wordOfBytes (b0 b1 b2 b3 : Byte) : wordBytes (wordOfBytes b0 b1 b2 b3) = [b0, b1, b2, b3] := by
  have lane0 : (wordOfBytes b0 b1 b2 b3).extractLsb' 0 8 = b0 := BitVec.extractLsb'_append_eq_right
  have lane1 : (wordOfBytes b0 b1 b2 b3).extractLsb' 8 8 = b1 := by
    rw [wordOfBytes, BitVec.extractLsb'_append_eq_of_le (by decide), BitVec.extractLsb'_append_eq_right]
  have lane2 : (wordOfBytes b0 b1 b2 b3).extractLsb' 16 8 = b2 := by
    rw [wordOfBytes, BitVec.extractLsb'_append_eq_of_le (by decide), BitVec.extractLsb'_append_eq_of_le (by decide),
      BitVec.extractLsb'_append_eq_right]
  have lane3 : (wordOfBytes b0 b1 b2 b3).extractLsb' 24 8 = b3 := by
    rw [wordOfBytes, BitVec.extractLsb'_append_eq_of_le (by decide), BitVec.extractLsb'_append_eq_of_le (by decide)]
    exact BitVec.extractLsb'_append_eq_left
  rw [wordBytes, lane0, lane1, lane2, lane3]

@[simp] theorem length_packBytes (bytes : List Byte) : (packBytes bytes).length = payloadWords bytes.length := by
  induction bytes using packBytes.induct with
  | case1 => rfl
  | case2 | case3 | case4 => simp [packBytes, payloadWords]
  | case5 b0 b1 b2 b3 rest ih =>
    simp only [packBytes, List.length_cons, ih, payloadWords]
    omega

/-- The lanes of the payload words are the bytes, then zero padding (R75). -/
theorem exists_flatMap_packBytes_eq (bytes : List Byte) :
    ∃ pad, (packBytes bytes).flatMap wordBytes = bytes ++ List.replicate pad 0 := by
  induction bytes using packBytes.induct with
  | case1 => exact ⟨0, rfl⟩
  | case2 b0 => exact ⟨3, by simp [packBytes, List.replicate]⟩
  | case3 b0 b1 => exact ⟨2, by simp [packBytes, List.replicate]⟩
  | case4 b0 b1 b2 => exact ⟨1, by simp [packBytes]⟩
  | case5 b0 b1 b2 b3 rest ih =>
    obtain ⟨pad, lanes⟩ := ih
    exact ⟨pad, by simp [packBytes, lanes]⟩

/-- A payload of a length that fits the LEN word is read back from its packed words (R75). -/
theorem decodePayload_encodePayload {bytes : List Byte} (h : bytes.length < 2 ^ 32) (mk : List Byte → Instr) :
    decodePayload (encodePayload bytes) mk = .ok (mk bytes) := by
  have len : (BitVec.ofNat 32 bytes.length).toNat = bytes.length := Nat.mod_eq_of_lt h
  have count : (packBytes bytes).length = payloadWords (BitVec.ofNat 32 bytes.length).toNat := by
    rw [len, length_packBytes]
  obtain ⟨pad, lanes⟩ := exists_flatMap_packBytes_eq bytes
  rw [encodePayload, decodePayload_cons_ok_iff, ← all_drop_eq_zero_iff_paddingZero count, len, lanes]
  simp

end Sys2Proof
end

section
/-! SUPPORT. The settled obligations of the combined checksummer (spec/42_checksummer.md R141 to R150). -/

namespace Sys2Proof.Claims

open Sys2Proof.Machine

/-! ### Update -/

/-- Settles O34: the message bytes are the bytes of the immediate, and a slice step is eight byte steps at both widths. -/
theorem ckUpd64Effect : Obligations.CkUpd64Effect := by
  rintro s imm _ rfl
  have row : (0x02000000 : Word) &&& Opcode.ckUpd64.mask = Opcode.ckUpd64.matchWord := by decide
  have decoded : decode ⟨0x02000000, wordsOfImm imm⟩ = .ok (.ckUpd64 imm) := by
    rw [decode_of_match _ row, decodeOperands, decodeImm_wordsOfImm]
  exact ⟨decoded, le64_messageBytes imm,
    sliceStep_eq_upd poly32 (by decide) (by decide) s.c32 (length_messageBytes imm),
    sliceStep_eq_upd poly64 (by decide) (by decide) s.c64 (length_messageBytes imm), rfl⟩

/-- `CK.UPDN` updates the pair by the fold of the byte steps (R144). -/
theorem exec_ckUpdN (bytes : List Byte) (s : State) :
    exec (.ckUpdN bytes) s = answer (s.setPair (upd32 s.c32 bytes) (upd64 s.c64 bytes)) noData := by
  rw [exec, execCkUpdN, feed32_eq_upd32, feed64_eq_upd64]

/-- Settles O35: the payload is read back from its words, and slice steps with byte steps for the rest make the fold of the byte steps. -/
theorem ckUpdNEffect : Obligations.CkUpdNEffect := by
  intro s bytes
  have row : (0x03000000 : Word) &&& Opcode.ckUpdN.mask = Opcode.ckUpdN.matchWord := by decide
  refine ⟨fun fits => ?_, exec_ckUpdN bytes s⟩
  rw [decode_of_match _ row, decodeOperands, decodePayload_encodePayload fits]

theorem decode_ckUpd8 (b : Byte) : decode ⟨header .ckUpd8 0 0 0 0 b, []⟩ = .ok (.ckUpd8 b) := by
  have row : header .ckUpd8 0 0 0 0 b &&& Opcode.ckUpd8.mask = Opcode.ckUpd8.matchWord := Laws.HeaderMatchesRow.ckUpd8 b
  rw [decode_of_match [] row, decodeOperands, decodeNoExt, fieldB_header]

/-- Settles O33: the header word is that of the encoder, whose byte the decoder reads back. -/
theorem ckUpd8Effect : Obligations.CkUpd8Effect := by
  intro s b
  have head : header .ckUpd8 0 0 0 0 b = 0x01000000 ||| b.setWidth 32 := by
    simp [header_eq_or, Opcode.code]
  rw [← head]
  exact ⟨decode_ckUpd8 b, rfl⟩

/-! ### Initialisation, read-out and state write -/

/-- Settles O32: the header is the row's match word, and the answer is the state with the initial pair. -/
theorem ckInitEffect : Obligations.CkInitEffect :=
  ⟨decode_of_match (o := .ckInit) [] (by decide), fun _ => rfl⟩

/-- Settles O36: each header is its row's match word, and each command answers from the pair alone. -/
theorem ckReadOut : Obligations.CkReadOut :=
  ⟨decode_of_match (o := .ckGet32) [] (by decide), decode_of_match (o := .ckGet64) [] (by decide),
    decode_of_match (o := .ckRds32) [] (by decide), decode_of_match (o := .ckRds64) [] (by decide),
    fun _ => ⟨rfl, rfl, rfl, rfl⟩⟩

/-- Settles O37: both headers are match words of Format I rows, and the operand form of `CK.WRS32` checks the high word. -/
theorem ckStateWrite : Obligations.CkStateWrite := by
  have wrs32 (lo hi : Word) : decode ⟨0x08000000, [lo, hi]⟩ = if hi = 0 then .ok (.ckWrs32 lo) else .error .highWord :=
    decode_of_match (o := .ckWrs32) [lo, hi] (by decide)
  have wrs64 (lo hi : Word) : decode ⟨0x09000000, [lo, hi]⟩ = .ok (.ckWrs64 (hi ++ lo)) :=
    decode_of_match (o := .ckWrs64) [lo, hi] (by decide)
  refine ⟨fun lo hi => ⟨?_, fun nonzero => ?_, wrs64 lo hi⟩, fun s v v' => ⟨rfl, rfl⟩⟩
  · rw [wrs32, if_pos rfl]
  · rw [wrs32, if_neg nonzero]

end Sys2Proof.Claims
end

section
/-! SUPPORT. Square-and-multiply computes the zeros operator, and the operator multiplies by a power of x, at every width (spec/44_zeros.md
R200, R201). -/

namespace Sys2Proof.Claims

open Sys2Proof.Machine Polynomial

variable {n : Nat} (poly : BitVec n)

/-! ### A word is known by its residue -/

theorem polyOf_injective : Function.Injective (polyOf : BitVec n → (ZMod 2)[X]) := by
  intro u v h
  ext i hi
  have coeffs := congrArg (fun p => p.coeff (n - 1 - i)) h
  have inside : n - 1 - i < n := by omega
  have index : n - 1 - (n - 1 - i) = i := by omega
  simp only [coeff_polyOf, inside, true_and, index, BitVec.getLsbD_eq_getElem hi] at coeffs
  cases hu : u[i] <;> cases hv : v[i] <;> simp [hu, hv] at coeffs ⊢

theorem residue_injective : Function.Injective (residue poly) := by
  intro u v h
  apply polyOf_injective
  rw [polyOf_eq_modByMonic poly h, ← polyOf_eq_modByMonic poly (v := v) rfl]

/-! ### The constants `ONE_n` and `X8_n` (00_scope.md R11) -/

/-- The word with the one bit `n-1-k` set is the polynomial x^k (00_scope.md R11). -/
theorem polyOf_one_shiftLeft {k : Nat} (hk : k < n) : polyOf (1#n <<< (n - 1 - k)) = X ^ k := by
  ext j
  have bit : (j < n ∧ (1#n <<< (n - 1 - k)).getLsbD (n - 1 - j) = true) ↔ j = k := by
    simp only [BitVec.getLsbD_shiftLeft, BitVec.getLsbD_one, Bool.and_eq_true, Bool.not_eq_true', decide_eq_true_eq,
      decide_eq_false_iff_not]
    omega
  rw [coeff_polyOf, coeff_X_pow]
  simp only [bit]

theorem residue_oneP (hn : 0 < n) : residue poly (oneP n) = 1 := by
  rw [residue, oneP, ← Nat.sub_zero (n - 1), polyOf_one_shiftLeft hn, pow_zero, map_one]

theorem residue_x8P (hn : 8 < n) : residue poly (x8P n) = AdjoinRoot.root (generator poly) ^ 8 := by
  have index : n - 9 = n - 1 - 8 := by omega
  rw [residue, x8P, index, polyOf_one_shiftLeft hn, map_pow, AdjoinRoot.mk_X]

/-! ### The zeros operator (44_zeros.md R200, R201) -/

theorem residue_zPow (hn : 0 < n) (count : Nat) :
    residue poly (zPow poly count) = AdjoinRoot.root (generator poly) ^ (8 * count) := by
  rw [zPow, residue_mulxIter, residue_oneP poly hn, mul_one]

/-- Multiplying by `Z_n(N)` is multiplying by x, `8 N` times (R200). -/
theorem mul_zPow (hn : 0 < n) (v : BitVec n) (count : Nat) : mul poly v (zPow poly count) = mulxIter poly (8 * count) v := by
  apply residue_injective poly
  rw [residue_mul, residue_zPow poly hn, residue_mulxIter, mul_comm]

/-- With enough iterations left the loop of `zeros_n` multiplies `r` by `q` to the power `m` (R201). -/
theorem residue_zerosLoop (k : Nat) (r q : BitVec n) {m : Word64} (hm : m.toNat < 2 ^ k) :
    residue poly (zerosLoop poly k r q m) = residue poly r * residue poly q ^ m.toNat := by
  induction k generalizing r q m with
  | zero =>
    have done : m.toNat = 0 := by omega
    simp [zerosLoop, done]
  | succ k ih =>
    have half : (m >>> 1).toNat = m.toNat / 2 := by simp [Nat.shiftRight_one]
    have fewer : (m >>> 1).toNat < 2 ^ k := by omega
    rw [zerosLoop]
    split
    · next done => simp [done]
    · next =>
      have low : m.getLsbD 0 = decide (m.toNat % 2 = 1) := Nat.testBit_zero m.toNat
      rw [ih _ _ fewer, residue_mul, half, ← pow_two, ← pow_mul, low]
      rcases Nat.mod_two_eq_zero_or_one m.toNat with even | odd
      · have bits : 2 * (m.toNat / 2) = m.toNat := by omega
        simp [even, bits]
      · have bits : 2 * (m.toNat / 2) + 1 = m.toNat := by omega
        simp only [odd, decide_true, if_true]
        rw [residue_mul, mul_assoc, ← pow_succ', bits]

/-- Square-and-multiply returns the operator (R201). -/
theorem zerosOp_eq_zPow (hn : 8 < n) (count : Word64) : zerosOp poly count = zPow poly count.toNat := by
  have pos : 0 < n := by omega
  apply residue_injective poly
  rw [zerosOp, residue_zerosLoop poly 64 _ _ count.isLt, residue_oneP poly pos, residue_x8P poly hn, residue_zPow poly pos,
    one_mul, ← pow_mul]

end Sys2Proof.Claims
end

section
/-! SUPPORT. What a leaving byte contributes to the state of a window: the byte step as multiplication by x^8, two states fed the same
bytes, and the out-byte tables in these terms, at every width (spec/43_rolling.md R171, R179). -/

namespace Sys2Proof.Machine

variable {n : Nat} (poly : BitVec n)

/-! ### The byte step as multiplication by x^8 -/

/-- While the low bits are 0 multiplication by x is a right shift (00_scope.md R12). -/
theorem mulxIter_eq_ushiftRight (k : Nat) {v : BitVec n} (low : ∀ i < k, v.getLsbD i = false) : mulxIter poly k v = v >>> k := by
  induction k generalizing v with
  | zero => simp
  | succ k ih =>
    have shift : mulx poly v = v >>> 1 := by simp [mulx, low 0]
    rw [mulxIter_succ, shift, ih, ← BitVec.shiftRight_add, Nat.add_comm]
    intro i hi
    rw [BitVec.getLsbD_ushiftRight]
    exact low _ (by omega)

/-- The byte step multiplies the state, with the byte XORed in, by x^8 (40 R104, 41 R124). -/
theorem byteStep_eq_mulxIter (hn : 8 ≤ n) (s : BitVec n) (b : Byte) :
    byteStep poly s b = mulxIter poly 8 (s ^^^ b.setWidth n) := by
  generalize hv : s ^^^ b.setWidth n = v
  have high : mulxIter poly 8 (v ^^^ (v.setWidth 8).setWidth n) = s >>> 8 := by
    rw [mulxIter_eq_ushiftRight]
    · ext i hi
      simp [← hv]
    · intro i hi
      have inside : i < n := by omega
      simp [hi, inside]
  rw [byteStep, hv, ← high, table, reduce, ← mulxIter_xor, BitVec.xor_assoc, BitVec.xor_self, BitVec.xor_zero]

/-- Two states fed the same bytes keep their difference, times x^8 per byte: the bytes cancel (40 R110, 41 R130). -/
theorem upd_xor_upd (hn : 8 ≤ n) (s s' : BitVec n) (d : List Byte) :
    upd poly s d ^^^ upd poly s' d = mulxIter poly (8 * d.length) (s ^^^ s') := by
  induction d generalizing s s' with
  | nil => simp
  | cons b d ih =>
    have step : byteStep poly s b ^^^ byteStep poly s' b = mulxIter poly 8 (s ^^^ s') := by
      rw [← byteStep_xor, BitVec.xor_self, byteStep_eq_mulxIter poly hn]
      simp
    rw [upd_cons, upd_cons, ih, step, ← mulxIter_add, List.length_cons]
    congr 1
    omega

/-! ### The out-byte tables (43 R171) -/

/-- The entry as R171 states it, in terms of `Z_n`. -/
theorem outByte_eq_zPow (hn : 8 < n) (init : BitVec n) {w : Nat} (hw : 1 ≤ w) (hw' : w < 2 ^ 64) (b : Byte) :
    outByte poly init w b =
      mul poly (table poly 0 b) (zPow poly (w - 1)) ^^^ (mul poly init (zPow poly w) ^^^ mul poly init (zPow poly (w - 1))) := by
  have size : (BitVec.ofNat 64 w).toNat = w := Nat.mod_eq_of_lt hw'
  have rest : (BitVec.ofNat 64 (w - 1)).toNat = w - 1 := Nat.mod_eq_of_lt (by omega)
  rw [outByte, outConst, Claims.zerosOp_eq_zPow poly hn, Claims.zerosOp_eq_zPow poly hn, size, rest]

/-- The entry is what the oldest byte contributes to the state of the window: the state with it XOR the state without it (43 R171, R179). -/
theorem outByte_eq_upd_xor_upd (hn : 8 < n) (init : BitVec n) (b : Byte) {rest : List Byte} (hr : rest.length + 1 < 2 ^ 64) :
    outByte poly init (rest.length + 1) b = upd poly init (b :: rest) ^^^ upd poly init rest := by
  have pos : 0 < n := by omega
  have first : byteStep poly init b = mulxIter poly 8 init ^^^ table poly 0 b := by
    rw [byteStep_eq_mulxIter poly hn.le, mulxIter_xor, table, reduce]
  have more : 8 * (rest.length + 1) = 8 + 8 * rest.length := by omega
  rw [outByte_eq_zPow poly hn init (by omega) hr, upd_cons, upd_xor_upd poly hn.le, first]
  simp only [Nat.add_sub_cancel, Claims.mul_zPow poly pos, more, mulxIter_add, mulxIter_xor]
  ac_rfl

/-- Rolling equivalence: compensating the oldest byte out and stepping a byte in gives the state of the window moved on by one (43 R179). -/
theorem byteStep_outByte (hn : 8 < n) (init : BitVec n) (out b : Byte) {rest : List Byte} (hr : rest.length + 1 < 2 ^ 64) :
    byteStep poly (upd poly init (out :: rest) ^^^ outByte poly init (rest.length + 1) out) b = upd poly init (rest ++ [b]) := by
  rw [outByte_eq_upd_xor_upd poly hn init out hr, ← BitVec.xor_assoc, BitVec.xor_self, BitVec.zero_xor, upd_append]
  rfl

end Sys2Proof.Machine
end

section
/-! SUPPORT. What a step can do to the rolling context, and what rolling a byte in does to the window and to the state of it
(spec/10_state.md R28, R33, R34; spec/43_rolling.md R170, R173, R174, R179). -/

namespace Sys2Proof.Machine

/-! ### The window after a roll (10_state.md R28) -/

section

variable {s : State}

/-- The oldest byte of the window is the slot at the read position. -/
theorem window_eq_oldest_cons (hp : s.pos.toNat < s.win.length) : s.window = s.oldest :: s.window.tail := by
  rw [State.window, List.drop_eq_getElem_cons hp, State.oldest, List.getD_eq_getElem s.win 0 hp]
  rfl

/-- Rolling a byte in drops the oldest byte of the window and appends the new one. -/
theorem window_rollByte (hp : s.pos.toNat < s.win.length) (hw : s.win.length = s.w.toNat) (b : Byte) :
    (s.rollByte b).window = s.window.tail ++ [b] := by
  have rest : s.window.tail = s.win.drop (s.pos.toNat + 1) ++ s.win.take s.pos.toNat := by
    rw [State.window, List.drop_eq_getElem_cons hp, List.cons_append, List.tail_cons]
  have next : s.nextPos.toNat = (s.pos.toNat + 1) % s.win.length := by
    rw [hw]
    exact nextPos_toNat (by omega)
  have written : s.win.set s.pos.toNat b = (s.win.take s.pos.toNat ++ [b]) ++ s.win.drop (s.pos.toNat + 1) := by
    rw [List.set_eq_take_append_cons_drop, if_pos hp, List.append_assoc, List.singleton_append]
  have upTo : (s.win.take s.pos.toNat ++ [b]).length = s.pos.toNat + 1 := by
    rw [List.length_append, List.length_take_of_le hp.le, List.length_singleton]
  rw [rest, State.window, State.pos_rollByte, State.win_rollByte, next, written, List.append_assoc (List.drop _ _)]
  rcases Nat.lt_or_ge (s.pos.toNat + 1) s.win.length with inside | wraps
  · rw [Nat.mod_eq_of_lt inside, List.drop_left' upTo, List.take_left' upTo]
  · have last : s.pos.toNat + 1 = s.win.length := by omega
    simp [last]

end

/-! ### Rolling bytes in one after another (43_rolling.md R174) -/

theorem rollByte_respond (s : State) (st : Status) (d : Word64) (b : Byte) :
    (s.respond st d).rollByte b = (s.rollByte b).respond st d := rfl

/-- A response given before rolling is as one given after it. -/
theorem foldl_rollByte_respond (bytes : List Byte) (s : State) (st : Status) (d : Word64) :
    bytes.foldl State.rollByte (s.respond st d) = (bytes.foldl State.rollByte s).respond st d := by
  induction bytes generalizing s with
  | nil => rfl
  | cons b bytes ih => rw [List.foldl_cons, rollByte_respond, ih, List.foldl_cons]

@[simp] theorem responses_foldl_rollByte (bytes : List Byte) (s : State) :
    (bytes.foldl State.rollByte s).responses = s.responses := by
  induction bytes generalizing s with
  | nil => rfl
  | cons b bytes ih => rw [List.foldl_cons, ih, State.responses_rollByte]

/-! ### The state of the window (43_rolling.md R170, R179) -/

/-- `RL.NEW` computes the states of the new window. -/
theorem windowCrcInv_installWindow (s : State) (bytes : List Byte) : (s.installWindow bytes).WindowCrcInv := by
  intro _
  simp [State.window]

/-- Rolling a byte in moves the states on to those of the new window. -/
theorem windowCrcInv_rollByte {s : State} (ring : s.ringWf = true) (tables : s.TablesInv) (crc : s.WindowCrcInv) (b : Byte) :
    (s.rollByte b).WindowCrcInv := by
  intro hv
  obtain ⟨-, -, hpos, hlen⟩ := ringWf_iff.1 ring hv
  obtain ⟨h32, h64⟩ := tables hv
  obtain ⟨hrs32, hrs64⟩ := crc hv
  have hp : s.pos.toNat < s.win.length := hlen ▸ hpos
  have win := window_eq_oldest_cons hp
  have size : s.w.toNat = s.window.tail.length + 1 := by
    rw [← hlen, ← length_window, win, List.length_cons, List.tail_cons]
  have bound : s.window.tail.length + 1 < 2 ^ 64 := by
    have := s.w.isLt
    omega
  rw [window_rollByte hp hlen, State.rs32_rollByte, State.rs64_rollByte, hrs32, hrs64, h32, h64, entry_outTable32, entry_outTable64,
    size, win]
  exact ⟨byteStep_outByte poly32 (by decide) init32 _ b bound, byteStep_outByte poly64 (by decide) init64 _ b bound⟩

/-- A roll writes neither the tables nor the window size. -/
theorem tablesInv_rollByte {s : State} (tables : s.TablesInv) (b : Byte) : (s.rollByte b).TablesInv := tables

theorem windowCrcInv_foldl_rollByte (bytes : List Byte) {s : State} (ring : s.ringWf = true) (tables : s.TablesInv)
    (crc : s.WindowCrcInv) : (bytes.foldl State.rollByte s).WindowCrcInv := by
  induction bytes generalizing s with
  | nil => exact crc
  | cons b bytes ih =>
    exact ih (ringWf_rollByte ring b) (tablesInv_rollByte tables b) (windowCrcInv_rollByte ring tables crc b)

/-! ### What a command can do to the rolling context (10_state.md R34) -/

/-- The rolling context of a state and its `WMAX`, all other fields at their reset values: two states with the same one agree on every
statement about the rolling context. -/
def State.rollingContext (s : State) : State :=
  { State.reset with
    rs32 := s.rs32, rs64 := s.rs64, rvalid := s.rvalid, w := s.w, pos := s.pos, win := s.win, ob32 := s.ob32, ob64 := s.ob64
    wmax := s.wmax }

theorem windowCrcInv_rollingContext (s : State) : s.rollingContext.WindowCrcInv ↔ s.WindowCrcInv := Iff.rfl

theorem windowCrcInv_of_rollingContext_eq {s t : State} (same : t.rollingContext = s.rollingContext) (crc : s.WindowCrcInv) :
    t.WindowCrcInv := by
  rwa [← windowCrcInv_rollingContext, same]

/-- A command leaves the rolling context as it is, or builds a new one, or rolls bytes into the window it has. -/
theorem exec_rolling_cases {i : Instr} {s t : State} (h : exec i s = .next t) :
    t.rollingContext = s.rollingContext ∨
    (∃ bytes : List Byte, 1 ≤ bytes.length ∧ bytes.length ≤ s.wmax.toNat ∧ t = (s.installWindow bytes).respond .ok 0) ∨
    (∃ bytes : List Byte, s.rvalid = true ∧ t = (bytes.foldl State.rollByte s).respond .ok 0) := by
  cases i with
  | rlNew bytes =>
    obtain ⟨-, rfl⟩ | ⟨-, rfl⟩ | new := execRlNew_next h
    · exact .inl rfl
    · exact .inl rfl
    · exact .inr (.inl ⟨bytes, new⟩)
  | rlRoll b =>
    obtain ⟨hv, ha⟩ | ⟨-, rfl⟩ := withWindow_next h
    · exact .inr (.inr ⟨[b], hv, answer_next_iff.1 ha⟩)
    · exact .inl rfl
  | rlRollN bytes =>
    obtain ⟨hv, ha⟩ | ⟨-, rfl⟩ := withWindow_next h
    · exact .inr (.inr ⟨bytes, hv, answer_next_iff.1 ha⟩)
    · exact .inl rfl
  | rlGet32 | rlGet64 | rlRdob32 | rlRdob64 =>
    obtain ⟨-, ha⟩ | ⟨-, rfl⟩ := withWindow_next h
    · obtain rfl := answer_next_iff.1 ha
      exact .inl rfl
    · exact .inl rfl
  | ckInit | ckUpd8 | ckUpd64 | ckUpdN | ckGet32 | ckGet64 | ckRds32 | ckRds64 | ckWrs32 | ckWrs64 | tbRd32 | tbRd64 | zrNew
  | zrMul | zrApply | zrRd32 | zrRd64 =>
    obtain rfl := answer_next_iff.1 h
    exact .inl rfl

end Sys2Proof.Machine
end

section
/-! SUPPORT. The settled obligations of the rolling window (spec/43_rolling.md R170 to R178). -/

namespace Sys2Proof.Claims

open Sys2Proof.Machine

/-! ### The invariant (43_rolling.md R170) -/

theorem exec_keeps_windowCrcInv {i : Instr} {s t : State} (ring : s.ringWf = true) (tables : s.TablesInv) (crc : s.WindowCrcInv)
    (h : exec i s = .next t) : t.WindowCrcInv := by
  obtain same | ⟨bytes, -, -, rfl⟩ | ⟨bytes, -, rfl⟩ := exec_rolling_cases h
  · exact windowCrcInv_of_rollingContext_eq same crc
  · exact windowCrcInv_installWindow s bytes
  · exact windowCrcInv_foldl_rollByte bytes ring tables crc

/-- Settles O16: a command keeps the invariant, by the rolling equivalence where it rolls; no other step writes the context but a reset,
which leaves no window. -/
theorem stepKeepsWindowCrc : Obligations.StepKeepsWindowCrc := by
  intro s t ring tables crc h
  obtain ⟨-, rfl⟩ | ⟨rest, -, rfl⟩ | ⟨p, rest, i, -, -, he⟩ | ⟨p, rest, e, -, -, rfl⟩ := step_cases h
  · exact crc
  · exact fun valid => absurd valid Bool.false_ne_true
  · exact exec_keeps_windowCrcInv (s := s.withInbox rest) ring tables crc he
  · exact crc

/-! ### The out-byte tables (43_rolling.md R171) -/

/-- Settles O30: `zeros_n` returns the operators the rule names, at both widths. -/
theorem outByteTableRule : Obligations.OutByteTableRule := by
  intro w b hw hw'
  rw [entry_outTable32, entry_outTable64]
  exact ⟨outByte_eq_zPow poly32 (by decide) init32 hw hw' b, outByte_eq_zPow poly64 (by decide) init64 hw hw' b⟩

/-! ### Encodings (30_encoding.md R72, R76) -/

/-- A header whose only operand is a byte is the row's match word with the byte in bits 7:0. -/
theorem header_of_byte (o : Opcode) (b : Byte) : header o 0 0 0 0 b = o.matchWord ||| b.setWidth 32 := by
  have code : o.code.setWidth 32 <<< 24 = o.matchWord := by cases o <;> rfl
  simp [header_eq_or, code]

theorem decode_of_byte {o : Opcode} {mk : Byte → Instr} {b : Byte} (operand : ∀ h, decodeOperands o h [] = .ok (mk (fieldB h)))
    (row : header o 0 0 0 0 b &&& o.mask = o.matchWord) : decode ⟨o.matchWord ||| b.setWidth 32, []⟩ = .ok (mk b) := by
  rw [← header_of_byte, decode_of_match [] row, operand, fieldB_header]

/-! ### Construction and rolling (43_rolling.md R172 to R174) -/

theorem exec_rlNew_of_empty {s : State} {bytes : List Byte} (h : bytes.length = 0) : exec (.rlNew bytes) s = raiseError s .eInvalidWindow :=
  if_pos h

theorem exec_rlNew_of_long {s : State} {bytes : List Byte} (h : s.wmax.toNat < bytes.length) :
    exec (.rlNew bytes) s = raiseError s .eCapacity := by
  have nonempty : bytes.length ≠ 0 := by omega
  rw [exec, execRlNew, if_neg nonempty, if_pos h]

theorem exec_rlNew_of_fits {s : State} {bytes : List Byte} (h : 1 ≤ bytes.length) (h' : bytes.length ≤ s.wmax.toNat) :
    exec (.rlNew bytes) s = answer (s.installWindow bytes) noData := by
  rw [exec, execRlNew, if_neg (by omega), if_neg (by omega)]

/-- Settles O41: the payload is read back from its words, the two checks exclude each other, and the engine's update is the fold. -/
theorem rlNewEffect : Obligations.RlNewEffect := by
  intro s bytes
  have row : (0x20000000 : Word) &&& Opcode.rlNew.mask = Opcode.rlNew.matchWord := by decide
  refine ⟨fun fits => ?_, exec_rlNew_of_empty, exec_rlNew_of_long, fun nonempty fits => ?_⟩
  · rw [decode_of_match _ row, decodeOperands, decodePayload_encodePayload fits]
  · rw [exec_rlNew_of_fits nonempty fits, ← feed32_eq_upd32, ← feed64_eq_upd64]
    rfl

theorem exec_rlRoll_of_valid {s : State} (h : s.rvalid = true) (b : Byte) : exec (.rlRoll b) s = answer (s.rollByte b) noData :=
  withWindow_of_valid h _

/-- Settles O42: the byte at the read position is the one the model compensates. -/
theorem rlRollEffect : Obligations.RlRollEffect := by
  intro s b
  refine ⟨decode_of_byte (o := .rlRoll) (fun _ => rfl) (Laws.HeaderMatchesRow.rlRoll b), fun h => withWindow_of_not_valid h _,
    fun out h slot => ?_⟩
  have leaves : s.oldest = out := by rw [State.oldest, List.getD_eq_getElem?_getD, slot, Option.getD_some]
  rw [exec_rlRoll_of_valid h, ← leaves]
  rfl

/-- One `RL.ROLL` per byte rolls the bytes in, with one response each. -/
theorem rolls_of_valid (bytes : List Byte) {s : State} (h : s.rvalid = true) :
    rolls bytes s = some { bytes.foldl State.rollByte s with
      responses := s.responses ++ List.replicate bytes.length ⟨.ok, 0⟩ } := by
  induction bytes generalizing s with
  | nil => simp [rolls]
  | cons b bytes ih =>
    have first : rolls (b :: bytes) s = rolls bytes ((s.rollByte b).respond .ok 0) := by
      rw [rolls, exec_rlRoll_of_valid h]
      rfl
    rw [first, ih (s := (s.rollByte b).respond .ok 0) h, foldl_rollByte_respond]
    simp [respond_eq, List.replicate_succ]

/-- Settles O43: both ways roll the same bytes in, and differ in the responses alone. -/
theorem rlRollNEffect : Obligations.RlRollNEffect := by
  intro s bytes
  have row : (0x22000000 : Word) &&& Opcode.rlRollN.mask = Opcode.rlRollN.matchWord := by decide
  refine ⟨fun fits => ?_, fun h => withWindow_of_not_valid h _, fun h => ⟨_, rolls_of_valid bytes h, ?_⟩⟩
  · rw [decode_of_match _ row, decodeOperands, decodePayload_encodePayload fits]
  · rw [exec, execRlRollN, withWindow_of_valid h, answer, respond_eq, responses_foldl_rollByte]
    rfl

/-! ### Read-out (43_rolling.md R175 to R178) -/

/-- Settles O44: the headers match their rows, and the guard lets each command answer from the context alone, or refuses it. -/
theorem rlReadOut : Obligations.RlReadOut := by
  intro s b
  refine ⟨decode_of_match (o := .rlGet32) [] (by decide), decode_of_match (o := .rlGet64) [] (by decide),
    decode_of_byte (o := .rlRdob32) (fun _ => rfl) (Laws.HeaderMatchesRow.rlRdob32 b),
    decode_of_byte (o := .rlRdob64) (fun _ => rfl) (Laws.HeaderMatchesRow.rlRdob64 b), fun h => ?_, fun h => ?_⟩
  · exact ⟨withWindow_of_valid h _, withWindow_of_valid h _, withWindow_of_valid h _, withWindow_of_valid h _⟩
  · exact ⟨withWindow_of_not_valid h _, withWindow_of_not_valid h _, withWindow_of_not_valid h _, withWindow_of_not_valid h _⟩

end Sys2Proof.Claims
end

section
/-! SUPPORT. The register fields of a header word, read back (spec/30_encoding.md R72), and the packets whose header carries operator registers
only. -/

namespace Sys2Proof

/-! ### The register fields of a header -/

section

variable (o : Opcode) (zd za zb : ZReg) (ti : TabIx) (b : Byte)

/-- A register number survives its two bits. -/
theorem toFin_ofNat_register (z : ZReg) : (BitVec.ofNat 2 z.val).toFin = z := by
  ext
  simp

@[simp] theorem fieldZb_header : fieldZb (header o zd za zb ti b) = zb := by
  simp (disch := decide) only [fieldZb, header, BitVec.extractLsb'_append_eq_of_le, BitVec.extractLsb'_append_eq_right,
    Nat.reduceSub, toFin_ofNat_register]

@[simp] theorem fieldZa_header : fieldZa (header o zd za zb ti b) = za := by
  simp (disch := decide) only [fieldZa, header, BitVec.extractLsb'_append_eq_of_le, BitVec.extractLsb'_append_eq_right,
    Nat.reduceSub, toFin_ofNat_register]

@[simp] theorem fieldZd_header : fieldZd (header o zd za zb ti b) = zd := by
  simp (disch := decide) only [fieldZd, header, BitVec.extractLsb'_append_eq_of_le, BitVec.extractLsb'_append_eq_right,
    Nat.reduceSub, toFin_ofNat_register]

end

/-! ### Headers that carry operator registers only (30_encoding.md R76) -/

/-- A header whose only operands are registers is the row's match word with the register numbers in their fields. -/
theorem header_of_registers (o : Opcode) (zd za zb : ZReg) :
    header o zd za zb 0 0 =
      o.matchWord ||| (BitVec.ofNat 32 zd.val <<< 20) ||| (BitVec.ofNat 32 za.val <<< 16) ||| (BitVec.ofNat 32 zb.val <<< 12) := by
  have code : o.code.setWidth 32 <<< 24 = o.matchWord := by cases o <;> rfl
  simp [header_eq_or, code]

/-- A header whose only operand is `za` is the row's match word with the register number in bits 17:16. -/
theorem header_of_za (o : Opcode) (za : ZReg) : header o 0 za 0 0 0 = o.matchWord ||| (BitVec.ofNat 32 za.val <<< 16) := by
  rw [header_of_registers]
  simp

theorem decode_of_za {o : Opcode} {mk : ZReg → Instr} {za : ZReg} (operand : ∀ h, decodeOperands o h [] = .ok (mk (fieldZa h)))
    (row : header o 0 za 0 0 0 &&& o.mask = o.matchWord) :
    decode ⟨o.matchWord ||| (BitVec.ofNat 32 za.val <<< 16), []⟩ = .ok (mk za) := by
  rw [← header_of_za, decode_of_match [] row, operand, fieldZa_header]

end Sys2Proof
end

section
/-! SUPPORT. The laws of the zeros operator at every width (spec/44_zeros.md R200, R202, R208). -/

namespace Sys2Proof.Claims

open Sys2Proof.Machine Polynomial

variable {n : Nat} (poly : BitVec n)

theorem polyOf_zPow (hn : 0 < n) (count : Nat) : polyOf (zPow poly count) = X ^ (8 * count) %ₘ generator poly :=
  polyOf_eq_modByMonic poly (by rw [residue_zPow poly hn, map_pow, AdjoinRoot.mk_X])

theorem zPow_one (hn : 8 < n) : zPow poly 1 = x8P n := by
  apply residue_injective poly
  rw [residue_zPow poly (by omega), residue_x8P poly hn, mul_one]

theorem zPow_add (hn : 0 < n) (a b : Nat) : zPow poly (a + b) = mul poly (zPow poly a) (zPow poly b) := by
  rw [mul_zPow poly hn, zPow, Nat.mul_add, mulxIter_add, ← zPow]

/-- A zero byte multiplies the state by x^8, so N of them multiply it by x^(8N) (R202). -/
theorem upd_replicate_zero (hn : 8 ≤ n) (count : Nat) (s : BitVec n) :
    upd poly s (List.replicate count 0) = mul poly s (zPow poly count) := by
  rw [mul_zPow poly (by omega)]
  induction count generalizing s with
  | zero => rfl
  | succ count ih =>
    have step : byteStep poly s 0 = mulxIter poly 8 s := by simp [byteStep_eq_mulxIter poly hn]
    rw [List.replicate_succ, upd_cons, ih, step, ← mulxIter_add, Nat.mul_succ, Nat.add_comm]

end Sys2Proof.Claims
end

section
/-! SUPPORT. The settled obligations of the zeros operator (spec/44_zeros.md R200 to R207). -/

namespace Sys2Proof.Machine

/-- A command that writes the pair changes the pair and the response list, nothing else. -/
theorem answer_setPair (s : State) (v32 : BitVec 32) (v64 : BitVec 64) :
    answer (s.setPair v32 v64) noData = .next { s with c32 := v32, c64 := v64, responses := s.responses ++ [⟨.ok, 0⟩] } := rfl

end Sys2Proof.Machine

namespace Sys2Proof.Claims

open Sys2Proof.Machine

/-! ### The operator (44_zeros.md R200 to R202) -/

/-- Settles O27: the operator's residue is the power of x, at both widths, and its values follow. -/
theorem operatorIsPowerOfX : Obligations.OperatorIsPowerOfX :=
  ⟨fun count => ⟨polyOf_zPow poly32 (by decide) count, polyOf_zPow poly64 (by decide) count⟩,
    zPow_zero poly32, zPow_one poly32 (by decide), zPow_zero poly64, zPow_one poly64 (by decide),
    fun a b => ⟨zPow_add poly32 (by decide) a b, zPow_add poly64 (by decide) a b⟩⟩

/-- Settles O28: the loop's residue is the power of x for the whole count, at both widths. -/
theorem zerosReturnsOperator : Obligations.ZerosReturnsOperator :=
  fun count => ⟨zerosOp_eq_zPow poly32 (by decide) count, zerosOp_eq_zPow poly64 (by decide) count⟩

/-- Settles O29: each zero byte multiplies the state by x^8, at both widths. -/
theorem applyFeedsZeroBytes : Obligations.ApplyFeedsZeroBytes :=
  fun count => ⟨upd_replicate_zero poly32 (by decide) count, upd_replicate_zero poly64 (by decide) count⟩

/-! ### The commands (44_zeros.md R203 to R207) -/

/-- `ZR.NEW` writes the operators of both polynomials for its count (R203). -/
theorem exec_zrNew (zd : ZReg) (count : Word64) (s : State) :
    exec (.zrNew zd count) s = answer (s.setZr zd ⟨z32 count.toNat, z64 count.toNat⟩) noData := by
  obtain ⟨op32, op64⟩ := zerosReturnsOperator count
  rw [exec, execZrNew, op32, op64]

/-- Settles O48: the register and the count are read back from the packet, and square-and-multiply returns the operators. -/
theorem zrNewEffect : Obligations.ZrNewEffect := by
  intro s zd count
  have decoded : decode ⟨0x30000000 ||| (BitVec.ofNat 32 zd.val <<< 20), wordsOfImm count⟩ = .ok (.zrNew zd count) := by
    rw [decode_of_match _ (match_zrNew zd), decodeOperands, decodeImm_wordsOfImm, fieldZd_zrNew]
  exact ⟨decoded, exec_zrNew zd count s⟩

theorem decode_zrMul (zd za zb : ZReg) : decode ⟨header .zrMul zd za zb 0 0, []⟩ = .ok (.zrMul zd za zb) := by
  have row : header .zrMul zd za zb 0 0 &&& Opcode.zrMul.mask = Opcode.zrMul.matchWord := Laws.HeaderMatchesRow.zrMul zd za zb
  rw [decode_of_match [] row, decodeOperands, decodeNoExt, fieldZd_header, fieldZa_header, fieldZb_header]

/-- `ZR.MUL` of the operators for two counts writes the one for their sum (R204, R208 (d)). -/
theorem exec_zrMul_of_operators {s : State} {za zb : ZReg} {na nb : Nat} (ha : s.getZr za = ⟨z32 na, z64 na⟩)
    (hb : s.getZr zb = ⟨z32 nb, z64 nb⟩) (zd : ZReg) :
    exec (.zrMul zd za zb) s = answer (s.setZr zd ⟨z32 (na + nb), z64 (na + nb)⟩) noData := by
  have sum32 : z32 (na + nb) = mul32 (z32 na) (z32 nb) := zPow_add poly32 (by decide) na nb
  have sum64 : z64 (na + nb) = mul64 (z64 na) (z64 nb) := zPow_add poly64 (by decide) na nb
  rw [exec, execZrMul, ha, hb, sum32, sum64]

/-- Settles O49: the header word is that of the encoder, both products read the state before the write, and operators multiply by adding
their counts. -/
theorem zrMulEffect : Obligations.ZrMulEffect := by
  intro s zd za zb
  have head : header .zrMul zd za zb 0 0 =
      0x31000000 ||| (BitVec.ofNat 32 zd.val <<< 20) ||| (BitVec.ofNat 32 za.val <<< 16) ||| (BitVec.ofNat 32 zb.val <<< 12) :=
    header_of_registers .zrMul zd za zb
  rw [← head]
  exact ⟨decode_zrMul zd za zb, rfl, fun na nb ha hb => exec_zrMul_of_operators ha hb zd⟩

/-- `ZR.APPLY` of the operator for a count feeds the pair that many zero bytes (R205, R202). -/
theorem exec_zrApply_of_operator {s : State} {za : ZReg} {count : Nat} (h : s.getZr za = ⟨z32 count, z64 count⟩) :
    exec (.zrApply za) s =
      .next { s with
        c32 := upd32 s.c32 (List.replicate count 0), c64 := upd64 s.c64 (List.replicate count 0),
        responses := s.responses ++ [⟨.ok, 0⟩] } := by
  obtain ⟨fed32, fed64⟩ := applyFeedsZeroBytes count
  rw [exec, execZrApply, answer_setPair, h, fed32, fed64]

/-- Settles O50: an operator feeds its zero bytes, and the identity is the operator for none. -/
theorem zrApplyEffect : Obligations.ZrApplyEffect := by
  intro s za
  refine ⟨?_, answer_setPair s _ _, fun _ h => exec_zrApply_of_operator h, fun identity => ?_⟩
  · exact decode_of_za (o := .zrApply) (fun _ => rfl) (Laws.HeaderMatchesRow.zrApply za)
  · have held : s.getZr za = ⟨z32 0, z64 0⟩ := identity
    exact exec_zrApply_of_operator held

/-- Settles O51: each header is its row's match word with the register number, and each command answers half of the register. -/
theorem zrReadOut : Obligations.ZrReadOut :=
  fun _ za =>
    ⟨decode_of_za (o := .zrRd32) (fun _ => rfl) (Laws.HeaderMatchesRow.zrRd32 za),
      decode_of_za (o := .zrRd64) (fun _ => rfl) (Laws.HeaderMatchesRow.zrRd64 za), rfl, rfl⟩

end Sys2Proof.Claims
end

section
/-! SUPPORT. A command, and so a packet, gives one response, and an error changes nothing else; the settled obligations of the errors
(spec/60_exceptions.md R232, R235). -/

namespace Sys2Proof.Claims

open Sys2Proof.Machine

/-! ### One response (60_exceptions.md R230, R232) -/

/-- What `u` has in common with `s` when a command's writes have led from `s` to `u`, its response not yet given: the pending actions, `WMAX`
and the responses are the same, and a window is not lost. -/
structure CommandWrites (s u : State) : Prop where
  inbox : u.inbox = s.inbox
  wmax : u.wmax = s.wmax
  responses : u.responses = s.responses
  rvalid : s.rvalid = true → u.rvalid = true

theorem CommandWrites.refl (s : State) : CommandWrites s s := ⟨rfl, rfl, rfl, id⟩

/-- A roll changes none of the four fields, so rolling on from the rolled state is rolling on from `s`. -/
theorem commandWrites_foldl_rollByte (bytes : List Byte) (s : State) : CommandWrites s (bytes.foldl State.rollByte s) := by
  induction bytes generalizing s with
  | nil => exact .refl s
  | cons b bytes ih =>
    obtain ⟨inbox, wmax, responses, rvalid⟩ := ih (s.rollByte b)
    exact ⟨inbox, wmax, responses, rvalid⟩

/-- The outcome `x` of a command from `s` is a next state with one more response; an error keeps the rest of `s` and answers data 0, and
`E_NO_WINDOW` has the cause `noWindow`. -/
def RespondsOnce (s : State) (x : Result) (noWindow : Prop) : Prop :=
  ∃ (u : State) (e : Status) (d : Word64), x = .next (u.respond e d) ∧ CommandWrites s u ∧ (e ≠ .ok → u = s ∧ d = 0) ∧
    (e = .eNoWindow → noWindow)

section

variable {s u : State} {d : Word64} {noWindow : Prop}

theorem respondsOnce_answer (writes : CommandWrites s u) : RespondsOnce s (answer u d) noWindow :=
  ⟨u, .ok, d, rfl, writes, fun error => absurd rfl error, nofun⟩

theorem respondsOnce_raiseError {e : Status} (cause : e = .eNoWindow → noWindow) : RespondsOnce s (raiseError s e) noWindow :=
  ⟨s, e, 0, rfl, .refl s, fun _ => ⟨rfl, rfl⟩, cause⟩

theorem respondsOnce_withWindow (writes : CommandWrites s u) (cause : s.rvalid = false → noWindow) :
    RespondsOnce s (withWindow s (answer u d)) noWindow := by
  cases hv : s.rvalid with
  | true =>
    rw [withWindow_of_valid hv]
    exact respondsOnce_answer writes
  | false =>
    rw [withWindow_of_not_valid hv]
    exact respondsOnce_raiseError fun _ => cause hv

end

/-- The response at the end of the list is the one the command gave, so one of `E_NO_WINDOW` has its cause. -/
theorem RespondsOnce.noWindow_of_status {s t : State} {x : Result} {noWindow : Prop} {r : Response} (once : RespondsOnce s x noWindow)
    (h : x = .next t) (hr : t.responses = s.responses ++ [r]) (hs : r.status = .eNoWindow) : noWindow := by
  obtain ⟨u, e, d, rfl, writes, -, cause⟩ := once
  cases h
  rw [State.responses_respond, writes.responses] at hr
  obtain rfl := List.singleton_inj.1 (List.append_cancel_left hr)
  exact cause hs

theorem RespondsOnce.rvalid {s t : State} {x : Result} {noWindow : Prop} (once : RespondsOnce s x noWindow) (h : x = .next t)
    (hv : s.rvalid = true) : t.rvalid = true := by
  obtain ⟨u, e, d, rfl, writes, -, -⟩ := once
  cases h
  exact writes.rvalid hv

/-! ### Every command -/

theorem respondsOnce_exec_rlNew (bytes : List Byte) (s : State) {noWindow : Prop} : RespondsOnce s (exec (.rlNew bytes) s) noWindow := by
  by_cases empty : bytes.length = 0
  · rw [exec_rlNew_of_empty empty]
    exact respondsOnce_raiseError nofun
  · by_cases long : s.wmax.toNat < bytes.length
    · rw [exec_rlNew_of_long long]
      exact respondsOnce_raiseError nofun
    · rw [exec_rlNew_of_fits (Nat.pos_of_ne_zero empty) (Nat.le_of_not_lt long)]
      exact respondsOnce_answer ⟨rfl, rfl, rfl, fun _ => rfl⟩

/-- A command gives one response, and `E_NO_WINDOW` only as one of the six commands while there is no window. -/
theorem respondsOnce_exec (i : Instr) (s : State) : RespondsOnce s (exec i s) (NeedsWindow i = true ∧ s.rvalid = false) := by
  cases i with
  | rlNew bytes => exact respondsOnce_exec_rlNew bytes s
  | rlRoll => exact respondsOnce_withWindow ⟨rfl, rfl, rfl, id⟩ fun hv => ⟨rfl, hv⟩
  | rlRollN bytes => exact respondsOnce_withWindow (commandWrites_foldl_rollByte bytes s) fun hv => ⟨rfl, hv⟩
  | rlGet32 | rlGet64 | rlRdob32 | rlRdob64 => exact respondsOnce_withWindow (.refl s) fun hv => ⟨rfl, hv⟩
  | ckInit | ckUpd8 | ckUpd64 | ckUpdN | ckGet32 | ckGet64 | ckRds32 | ckRds64 | ckWrs32 | ckWrs64 | tbRd32 | tbRd64 | zrNew
  | zrMul | zrApply | zrRd32 | zrRd64 => exact respondsOnce_answer ⟨rfl, rfl, rfl, id⟩

theorem exec_of_no_window {i : Instr} {s : State} (hv : s.rvalid = false) (hi : NeedsWindow i = true) :
    exec i s = raiseError s .eNoWindow := by
  cases i with
  | rlRoll | rlRollN | rlGet32 | rlGet64 | rlRdob32 | rlRdob64 => exact withWindow_of_not_valid hv _
  | ckInit | ckUpd8 | ckUpd64 | ckUpdN | ckGet32 | ckGet64 | ckRds32 | ckRds64 | ckWrs32 | ckWrs64 | tbRd32 | tbRd64 | rlNew | zrNew
  | zrMul | zrApply | zrRd32 | zrRd64 => exact absurd hi Bool.false_ne_true

/-! ### Every packet -/

/-- A packet, taken from the pending actions, gives one response, and `E_NO_WINDOW` only while there is no window. -/
theorem respondsOnce_step {s : State} {p : Packet} {rest : List HostAction} (hs : s.inbox = .packet p :: rest) :
    RespondsOnce (s.withInbox rest) (step s) (s.rvalid = false) := by
  cases hd : decode p with
  | ok i =>
    obtain ⟨u, e, d, hx, writes, error, cause⟩ := respondsOnce_exec i (s.withInbox rest)
    exact ⟨u, e, d, (step_of_decode_ok hs hd).trans hx, writes, error, fun he => (cause he).2⟩
  | error =>
    rw [step_of_decode_error hs hd]
    exact respondsOnce_raiseError nofun

/-! ### The obligations -/

/-- Settles O9: the one response of the packet's command is the last of the next state. -/
theorem oneResponsePerPacket : Obligations.OneResponsePerPacket := by
  intro s p rest hs
  obtain ⟨u, e, d, hx, writes, error, -⟩ := respondsOnce_step hs
  refine ⟨u.respond e d, ⟨e, d⟩, hx, writes.inbox, ?_, writes.wmax, fun he => ?_⟩
  · rw [State.responses_respond, writes.responses, State.responses_withInbox]
  · obtain ⟨rfl, rfl⟩ := error he
    rfl

/-- Settles O45: the guard refuses the six commands, and where a response is `E_NO_WINDOW` it was a guard that found no window. -/
theorem noWindowExactlyWhileNotValid : Obligations.NoWindowExactlyWhileNotValid := by
  refine ⟨fun s i hv hi => exec_of_no_window hv hi, fun s t i r hi h hr hs => ?_, fun s t p rest hs hv h => ⟨?_, fun r hr hn => ?_⟩⟩
  · obtain ⟨needs, -⟩ := (respondsOnce_exec i s).noWindow_of_status h hr hs
    exact Bool.false_ne_true (hi.symm.trans needs)
  · exact (respondsOnce_step hs).rvalid h hv
  · have lost := (respondsOnce_step hs).noWindow_of_status h hr hn
    exact Bool.false_ne_true (lost.symm.trans hv)

end Sys2Proof.Claims
end

section
/-! SUPPORT. Encoding a command and decoding it are inverse to each other: what each operand form reads is what the encoder writes, and a header
that matches its row is put together again from its fields (spec/30_encoding.md R72 to R76). -/

namespace Sys2Proof

/-! ### Encoding, then decoding -/

/-- The payload check leaves a length that fits the LEN word (R75). -/
theorem Instr.wf_iff {i : Instr} : i.wf = true ↔ i.payload.length < 2 ^ 32 := by
  rw [wf, decide_eq_true_eq]
  exact Nat.lt_succ_iff.symm

/-- The encoder's header matches the row of its command (R72, R76). -/
theorem encodeHead_match (i : Instr) : encodeHead i &&& i.opcode.mask = i.opcode.matchWord := by
  cases i with
  | ckInit => exact Laws.HeaderMatchesRow.ckInit
  | ckUpd8 b => exact Laws.HeaderMatchesRow.ckUpd8 b
  | ckUpd64 imm => exact Laws.HeaderMatchesRow.ckUpd64 imm
  | ckUpdN bytes => exact Laws.HeaderMatchesRow.ckUpdN bytes
  | ckGet32 => exact Laws.HeaderMatchesRow.ckGet32
  | ckGet64 => exact Laws.HeaderMatchesRow.ckGet64
  | ckRds32 => exact Laws.HeaderMatchesRow.ckRds32
  | ckRds64 => exact Laws.HeaderMatchesRow.ckRds64
  | ckWrs32 v => exact Laws.HeaderMatchesRow.ckWrs32 v
  | ckWrs64 v => exact Laws.HeaderMatchesRow.ckWrs64 v
  | tbRd32 ti b => exact Laws.HeaderMatchesRow.tbRd32 ti b
  | tbRd64 ti b => exact Laws.HeaderMatchesRow.tbRd64 ti b
  | rlNew bytes => exact Laws.HeaderMatchesRow.rlNew bytes
  | rlRoll b => exact Laws.HeaderMatchesRow.rlRoll b
  | rlRollN bytes => exact Laws.HeaderMatchesRow.rlRollN bytes
  | rlGet32 => exact Laws.HeaderMatchesRow.rlGet32
  | rlGet64 => exact Laws.HeaderMatchesRow.rlGet64
  | rlRdob32 b => exact Laws.HeaderMatchesRow.rlRdob32 b
  | rlRdob64 b => exact Laws.HeaderMatchesRow.rlRdob64 b
  | zrNew zd count => exact Laws.HeaderMatchesRow.zrNew zd count
  | zrMul zd za zb => exact Laws.HeaderMatchesRow.zrMul zd za zb
  | zrApply za => exact Laws.HeaderMatchesRow.zrApply za
  | zrRd32 za => exact Laws.HeaderMatchesRow.zrRd32 za
  | zrRd64 za => exact Laws.HeaderMatchesRow.zrRd64 za

/-- Each operand form reads back what the encoder wrote for its command (R73 to R75). -/
theorem decodeOperands_encode {i : Instr} (hi : i.wf = true) :
    decodeOperands i.opcode (encodeHead i) (encodeExt i) = .ok i := by
  cases i with
  | ckUpdN | rlNew | rlRollN => exact decodePayload_encodePayload (Instr.wf_iff.1 hi) _
  | ckUpd64 | ckWrs64 | zrNew => simp [Instr.opcode, decodeOperands, encodeHead, encodeExt]
  | ckWrs32 => rfl
  | ckInit | ckGet32 | ckGet64 | ckRds32 | ckRds64 | rlGet32 | rlGet64 => rfl
  | ckUpd8 | tbRd32 | tbRd64 | rlRoll | rlRdob32 | rlRdob64 | zrMul | zrApply | zrRd32 | zrRd64 =>
    simp [Instr.opcode, decodeOperands, encodeHead, encodeExt, decodeNoExt]

theorem decode_encode {i : Instr} (hi : i.wf = true) : decode (encode i) = .ok i := by
  rw [encode, decode_of_match _ (encodeHead_match i), decodeOperands_encode hi]

/-! ### The extension words of a decoded packet (30_encoding.md R73 to R75) -/

theorem decodeNoExt_ok_iff {ext : List Word} {i j : Instr} : decodeNoExt ext i = .ok j ↔ ext = [] ∧ i = j := by
  cases ext <;> simp [decodeNoExt]

theorem wordsOfImm_append (lo hi : Word) : wordsOfImm (hi ++ lo) = [lo, hi] := by
  rw [wordsOfImm, BitVec.extractLsb'_append_eq_right, BitVec.extractLsb'_append_eq_left]

theorem decodeImm_ok {ext : List Word} {mk : Word64 → Instr} {j : Instr} (h : decodeImm ext mk = .ok j) :
    ∃ v, ext = wordsOfImm v ∧ mk v = j := by
  unfold decodeImm at h
  split at h
  · next lo hi => exact ⟨hi ++ lo, (wordsOfImm_append lo hi).symm, Except.ok.inj h⟩
  · cases h

theorem decodeImmLow_ok {ext : List Word} {mk : Word → Instr} {j : Instr} (h : decodeImmLow ext mk = .ok j) :
    ∃ v, ext = [v, 0] ∧ mk v = j := by
  unfold decodeImmLow at h
  split at h
  · next lo hi =>
    split at h
    · next zero => exact ⟨lo, by rw [zero], Except.ok.inj h⟩
    · cases h
  · cases h

/-- A payload word is made of its lanes (R75). -/
theorem wordOfBytes_lanes (w : Word) :
    wordOfBytes (w.extractLsb' 0 8) (w.extractLsb' 8 8) (w.extractLsb' 16 8) (w.extractLsb' 24 8) = w := by
  simp (disch := decide) only [wordOfBytes, BitVec.extractLsb'_append_extractLsb'_eq_extractLsb', BitVec.extractLsb'_eq_self]

/-- Packing the lanes of payload words gives the words (R75). -/
theorem packBytes_flatMap_wordBytes (ws : List Word) : packBytes (ws.flatMap wordBytes) = ws := by
  induction ws with
  | nil => rfl
  | cons w ws ih => rw [List.flatMap_cons, wordBytes, List.cons_append, List.cons_append, List.cons_append, List.cons_append,
      List.nil_append, packBytes, wordOfBytes_lanes, ih]

/-- Zero bytes up to a full word are the padding that packing adds (R75). -/
theorem packBytes_append_padding {bytes : List Byte} {pad : Nat} (h : bytes.length + pad = 4 * payloadWords bytes.length) :
    packBytes (bytes ++ List.replicate pad 0) = packBytes bytes := by
  unfold payloadWords at h
  induction bytes using packBytes.induct with
  | case1 =>
    obtain rfl : pad = 0 := by simpa using h
    rfl
  | case2 b0 =>
    obtain rfl : pad = 3 := by simpa [Nat.add_comm 1] using h
    rfl
  | case3 b0 b1 =>
    obtain rfl : pad = 2 := by simpa [Nat.add_comm 2] using h
    rfl
  | case4 b0 b1 b2 =>
    obtain rfl : pad = 1 := by simpa [Nat.add_comm 3] using h
    rfl
  | case5 b0 b1 b2 b3 rest ih =>
    simp only [List.length_cons] at h
    simp only [List.cons_append, packBytes, ih (by omega)]

/-- What the payload form reads is what the encoder writes for it, LEN word, words and padding (R75). -/
theorem decodePayload_ok {ext : List Word} {mk : List Byte → Instr} {j : Instr} (h : decodePayload ext mk = .ok j) :
    ∃ bytes, bytes.length < 2 ^ 32 ∧ ext = encodePayload bytes ∧ mk bytes = j := by
  obtain _ | ⟨len, ws⟩ := ext
  · cases h
  · obtain ⟨count, padding, rfl⟩ := (decodePayload_cons_ok_iff mk).1 h
    have total : (ws.flatMap wordBytes).length = 4 * payloadWords len.toNat := by rw [length_flatMap_wordBytes, count]
    have size : ((ws.flatMap wordBytes).take len.toNat).length = len.toNat := by
      rw [List.length_take, total, payloadWords]
      omega
    have zeros : (ws.flatMap wordBytes).drop len.toNat = List.replicate (4 * payloadWords len.toNat - len.toNat) 0 := by
      rw [List.eq_replicate_iff, List.length_drop, total]
      simpa using (all_drop_eq_zero_iff_paddingZero count).2 padding
    have words : packBytes ((ws.flatMap wordBytes).take len.toNat) = ws := by
      rw [← packBytes_append_padding (pad := 4 * payloadWords len.toNat - len.toNat), ← zeros, List.take_append_drop,
        packBytes_flatMap_wordBytes]
      rw [size, payloadWords]
      omega
    refine ⟨_, size.trans_lt len.isLt, ?_, rfl⟩
    rw [encodePayload, size, words, BitVec.ofNat_toNat, BitVec.setWidth_eq]

/-! ### The header of a decoded packet (30_encoding.md R72, R76) -/

/-- A field at its position is the header with all other bits cleared (R72). -/
theorem extractLsb'_shiftLeft_eq_and {h m : Word} {start len : Nat} (hm : m = (BitVec.allOnes len).setWidth 32 <<< start) :
    BitVec.ofNat 32 (h.extractLsb' start len).toNat <<< start = h &&& m := by
  rw [BitVec.ofNat_toNat, hm]
  ext i hi
  by_cases low : i < start
  · simp [low]
  · have index : start + (i - start) = i := by omega
    simp [low, index, hi, Bool.and_comm]

section

variable (h : Word)

theorem fieldB_bits : (fieldB h).setWidth 32 = h &&& 0xFF := by
  rw [← BitVec.ofNat_toNat, ← extractLsb'_shiftLeft_eq_and (start := 0) (len := 8) (by decide), BitVec.shiftLeft_zero, fieldB]

theorem fieldTi_bits : BitVec.ofNat 32 (fieldTi h).val <<< 8 = h &&& 0x700 := extractLsb'_shiftLeft_eq_and (len := 3) (by decide)

theorem fieldZb_bits : BitVec.ofNat 32 (fieldZb h).val <<< 12 = h &&& 0x3000 := extractLsb'_shiftLeft_eq_and (len := 2) (by decide)

theorem fieldZa_bits : BitVec.ofNat 32 (fieldZa h).val <<< 16 = h &&& 0x30000 := extractLsb'_shiftLeft_eq_and (len := 2) (by decide)

theorem fieldZd_bits : BitVec.ofNat 32 (fieldZd h).val <<< 20 = h &&& 0x300000 := extractLsb'_shiftLeft_eq_and (len := 2) (by decide)

end

/-- A header that matches its row is the one with the operand fields that the mask leaves free (R72, R76). -/
theorem header_eq_of_match {o : Opcode} {h : Word} (hm : h &&& o.mask = o.matchWord) {zd za zb : ZReg} {ti : TabIx} {b : Byte}
    (fields : (BitVec.ofNat 32 zd.val <<< 20) ||| (BitVec.ofNat 32 za.val <<< 16) ||| (BitVec.ofNat 32 zb.val <<< 12) |||
      (BitVec.ofNat 32 ti.val <<< 8) ||| b.setWidth 32 = h &&& ~~~o.mask) : header o zd za zb ti b = h := by
  have code : o.code.setWidth 32 <<< 24 = o.matchWord := by cases o <;> rfl
  have parts : h &&& o.mask ||| h &&& ~~~o.mask = h := by
    rw [← BitVec.and_or_distrib_left, BitVec.or_not_self, BitVec.and_allOnes]
  rw [header_eq_or, code]
  simp only [BitVec.or_assoc] at fields ⊢
  rw [fields, ← hm, parts]

/-- The encoder writes the header a command was decoded from (R72, R76). -/
theorem encodeHead_of_decodeOperands {o : Opcode} {h : Word} {ext : List Word} {i : Instr} (hm : h &&& o.mask = o.matchWord)
    (hd : decodeOperands o h ext = .ok i) : encodeHead i = h := by
  cases o with
  | ckUpd8 | tbRd32 | tbRd64 | rlRoll | rlRdob32 | rlRdob64 | zrMul | zrApply | zrRd32 | zrRd64 =>
    obtain ⟨-, rfl⟩ := decodeNoExt_ok_iff.1 hd
    apply header_eq_of_match hm
    simp [fieldB_bits, fieldTi_bits, fieldZb_bits, fieldZa_bits, fieldZd_bits, Opcode.mask, ← BitVec.and_or_distrib_left]
  | ckInit | ckGet32 | ckGet64 | ckRds32 | ckRds64 | rlGet32 | rlGet64 =>
    obtain ⟨-, rfl⟩ := decodeNoExt_ok_iff.1 hd
    apply header_eq_of_match hm
    simp [Opcode.mask]
  | zrNew =>
    obtain ⟨v, -, rfl⟩ := decodeImm_ok hd
    apply header_eq_of_match hm
    simp [fieldZd_bits, Opcode.mask]
  | ckUpd64 | ckWrs64 =>
    obtain ⟨v, -, rfl⟩ := decodeImm_ok hd
    apply header_eq_of_match hm
    simp [Opcode.mask]
  | ckWrs32 =>
    obtain ⟨v, -, rfl⟩ := decodeImmLow_ok hd
    apply header_eq_of_match hm
    simp [Opcode.mask]
  | ckUpdN | rlNew | rlRollN =>
    obtain ⟨bytes, -, -, rfl⟩ := decodePayload_ok hd
    apply header_eq_of_match hm
    simp [Opcode.mask]

/-- A row's operand form gives a well-formed command of the row, whose extension words the encoder writes back (R73 to R76). -/
theorem decodeOperands_ok {o : Opcode} {h : Word} {ext : List Word} {i : Instr} (hd : decodeOperands o h ext = .ok i) :
    i.opcode = o ∧ i.wf = true ∧ encodeExt i = ext := by
  cases o with
  | ckInit | ckUpd8 | ckGet32 | ckGet64 | ckRds32 | ckRds64 | tbRd32 | tbRd64 | rlRoll | rlGet32 | rlGet64 | rlRdob32 | rlRdob64
  | zrMul | zrApply | zrRd32 | zrRd64 =>
    obtain ⟨rfl, rfl⟩ := decodeNoExt_ok_iff.1 hd
    exact ⟨rfl, rfl, rfl⟩
  | ckUpd64 | ckWrs64 | zrNew =>
    obtain ⟨v, rfl, rfl⟩ := decodeImm_ok hd
    exact ⟨rfl, rfl, rfl⟩
  | ckWrs32 =>
    obtain ⟨v, rfl, rfl⟩ := decodeImmLow_ok hd
    exact ⟨rfl, rfl, rfl⟩
  | ckUpdN | rlNew | rlRollN =>
    obtain ⟨bytes, fits, rfl, rfl⟩ := decodePayload_ok hd
    exact ⟨rfl, Instr.wf_iff.2 fits, rfl⟩

/-- A packet that decodes matches the row of its command (R70, R76). -/
theorem decode_ok {p : Packet} {i : Instr} (h : decode p = .ok i) :
    p.head &&& i.opcode.mask = i.opcode.matchWord ∧ decodeOperands i.opcode p.head p.ext = .ok i := by
  unfold decode at h
  split at h
  · cases h
  · next o _ =>
    split at h
    · next hm =>
      obtain ⟨rfl, -, -⟩ := decodeOperands_ok h
      exact ⟨hm, h⟩
    · cases h

end Sys2Proof
end

section
/-! SUPPORT. The settled obligations of the encoding (spec/30_encoding.md sections 2 and 3). -/

namespace Sys2Proof.Claims

/-- Settles O1: the encoder's header matches the command's row, and each operand form reads back what was written for it. -/
theorem decodeOfEncode : Obligations.DecodeOfEncode :=
  fun _ => decode_encode

/-- Settles O2: the row's match word and the free fields make up the header, and zero padding makes the payload words unique. -/
theorem encodeOfDecode : Obligations.EncodeOfDecode := by
  intro p i h
  obtain ⟨hm, hd⟩ := decode_ok h
  obtain ⟨-, wf, ext⟩ := decodeOperands_ok hd
  refine ⟨wf, ?_⟩
  rw [encode, encodeHead_of_decodeOperands hm hd, ext]

/-- Settles O3: every mask covers the opcode bits, and the decoder takes the operands by the row that matched. -/
theorem headerSelectsOneRow : Obligations.HeaderSelectsOneRow := by
  refine ⟨fun o o' h hm hm' => ?_, fun p i h => (decode_ok h).1⟩
  rw [← Opcode.code_inj, ← fieldOp_of_match hm, fieldOp_of_match hm']

/-- Settles O4: the decoder evaluates on each of the seven packets. -/
theorem specPacketsDecode : Obligations.SpecPacketsDecode :=
  ⟨rfl, rfl, rfl, rfl, rfl, rfl, rfl⟩

end Sys2Proof.Claims
end

section
/-! SUPPORT. Where a command's writes can lead, said once for all commands, and what follows for each piece of state (spec/10_state.md R33, R34). -/

namespace Sys2Proof.Claims

open Sys2Proof.Machine

/-! ### Rolling bytes in -/

/-- What one roll keeps, rolling a sequence of bytes in keeps. -/
theorem foldl_rollByte_keeps {P : State → Prop} (roll : ∀ s b, P s → P (s.rollByte b)) (bytes : List Byte) {s : State} (hs : P s) :
    P (bytes.foldl State.rollByte s) := by
  induction bytes generalizing s with
  | nil => exact hs
  | cons b bytes ih => exact ih (roll s b hs)

/-! ### The access table (10_state.md R34) -/

/-- Where the writes of `i` can lead from `s`, its response not yet given, by what `i` may write (10_state.md R34). -/
inductive Writes (i : Instr) (s : State) : State → Prop
  | nothing : Writes i s s
  | pair (writer : WritesPair i = true) (v32 : BitVec 32) (v64 : BitVec 64) : Writes i s (s.setPair v32 v64)
  | operator {zd : ZReg} (writer : writesOperator i = some zd) (v : ZOp) : Writes i s (s.setZr zd v)
  | newWindow {bytes : List Byte} (writer : i = .rlNew bytes) : Writes i s (s.installWindow bytes)
  | rolled (writer : WritesRolling i = true) (bytes : List Byte) : Writes i s (bytes.foldl State.rollByte s)

/-- A command writes what the access table lets it write, and gives one response. -/
def WritesAndResponds (i : Instr) (s : State) (x : Result) : Prop :=
  ∃ (u : State) (e : Status) (d : Word64), x = .next (u.respond e d) ∧ Writes i s u

section

variable {i : Instr} {s u : State} {d : Word64}

theorem writesAndResponds_answer (writes : Writes i s u) : WritesAndResponds i s (answer u d) :=
  ⟨u, .ok, d, rfl, writes⟩

theorem writesAndResponds_raiseError {e : Status} : WritesAndResponds i s (raiseError s e) :=
  ⟨s, e, 0, rfl, .nothing⟩

theorem writesAndResponds_withWindow (writes : Writes i s u) : WritesAndResponds i s (withWindow s (answer u d)) := by
  cases hv : s.rvalid with
  | true =>
    rw [withWindow_of_valid hv]
    exact writesAndResponds_answer writes
  | false =>
    rw [withWindow_of_not_valid hv]
    exact writesAndResponds_raiseError

end

/-- Every command writes what the access table lets it write (10_state.md R34). -/
theorem exec_writes (i : Instr) (s : State) : WritesAndResponds i s (exec i s) := by
  cases i with
  | ckInit | ckUpd8 | ckUpd64 | ckUpdN | zrApply => exact writesAndResponds_answer (.pair rfl _ _)
  | ckWrs32 v => exact writesAndResponds_answer (.pair rfl v s.c64)
  | ckWrs64 v => exact writesAndResponds_answer (.pair rfl s.c32 v)
  | zrNew | zrMul => exact writesAndResponds_answer (.operator rfl _)
  | ckGet32 | ckGet64 | ckRds32 | ckRds64 | tbRd32 | tbRd64 | zrRd32 | zrRd64 => exact writesAndResponds_answer .nothing
  | rlGet32 | rlGet64 | rlRdob32 | rlRdob64 => exact writesAndResponds_withWindow .nothing
  | rlRoll b => exact writesAndResponds_withWindow (.rolled rfl [b])
  | rlRollN bytes => exact writesAndResponds_withWindow (.rolled rfl bytes)
  | rlNew bytes =>
    obtain ⟨u, e, d, h, -⟩ := respondsOnce_exec (.rlNew bytes) s
    obtain ⟨-, same⟩ | ⟨-, same⟩ | ⟨-, -, new⟩ := execRlNew_next h
    · exact ⟨s, .eInvalidWindow, 0, same ▸ h, .nothing⟩
    · exact ⟨s, .eCapacity, 0, same ▸ h, .nothing⟩
    · exact ⟨s.installWindow bytes, .ok, 0, new ▸ h, .newWindow rfl⟩

theorem exec_next_writes {i : Instr} {s t : State} (h : exec i s = .next t) :
    ∃ (u : State) (e : Status) (d : Word64), Writes i s u ∧ t = u.respond e d := by
  obtain ⟨u, e, d, hx, writes⟩ := exec_writes i s
  exact ⟨u, e, d, writes, Host.Outcome.next.inj (h.symm.trans hx)⟩

/-- What a roll leaves alone of the block's state: all but the rolling states, the read position and the slots (43_rolling.md R173). -/
structure KeptByRoll (s u : State) : Prop where
  c32 : u.c32 = s.c32
  c64 : u.c64 = s.c64
  zr : u.zr = s.zr
  rvalid : u.rvalid = s.rvalid
  w : u.w = s.w
  ob32 : u.ob32 = s.ob32
  ob64 : u.ob64 = s.ob64

theorem keptByRoll_foldl_rollByte (bytes : List Byte) (s : State) : KeptByRoll s (bytes.foldl State.rollByte s) :=
  foldl_rollByte_keeps (fun _ _ ⟨c32, c64, zr, rvalid, w, ob32, ob64⟩ => ⟨c32, c64, zr, rvalid, w, ob32, ob64⟩) bytes
    ⟨rfl, rfl, rfl, rfl, rfl, rfl, rfl⟩

section

variable {i : Instr} {s u : State} (writes : Writes i s u)
include writes

theorem Writes.pair_kept (hi : WritesPair i = false) : u.c32 = s.c32 ∧ u.c64 = s.c64 := by
  cases writes with
  | pair writer => exact absurd (hi.symm.trans writer) Bool.false_ne_true
  | nothing | operator | newWindow => exact ⟨rfl, rfl⟩
  | rolled _ bytes => exact ⟨(keptByRoll_foldl_rollByte bytes s).c32, (keptByRoll_foldl_rollByte bytes s).c64⟩

theorem Writes.ring_kept (hi : WritesRolling i = false) : u.rs32 = s.rs32 ∧ u.rs64 = s.rs64 ∧ u.pos = s.pos ∧ u.win = s.win := by
  cases writes with
  | nothing | pair | operator => exact ⟨rfl, rfl, rfl, rfl⟩
  | newWindow writer =>
    subst writer
    exact absurd hi.symm Bool.false_ne_true
  | rolled writer => exact absurd (hi.symm.trans writer) Bool.false_ne_true

theorem Writes.tables_kept (hi : ∀ bytes, i ≠ .rlNew bytes) :
    u.rvalid = s.rvalid ∧ u.w = s.w ∧ u.ob32 = s.ob32 ∧ u.ob64 = s.ob64 := by
  cases writes with
  | nothing | pair | operator => exact ⟨rfl, rfl, rfl, rfl⟩
  | newWindow writer => exact absurd writer (hi _)
  | rolled _ bytes =>
    obtain ⟨-, -, -, rvalid, w, ob32, ob64⟩ := keptByRoll_foldl_rollByte bytes s
    exact ⟨rvalid, w, ob32, ob64⟩

theorem Writes.operator_kept {k : ZReg} (hi : writesOperator i ≠ some k) : u.getZr k = s.getZr k := by
  cases writes with
  | nothing | pair | newWindow => rfl
  | @operator zd writer v =>
    refine State.getZr_setZr_ne s ?_ v
    rintro rfl
    exact hi writer
  | rolled _ bytes => rw [State.getZr, State.getZr, (keptByRoll_foldl_rollByte bytes s).zr]

theorem Writes.parameters_kept : u.wmax = s.wmax ∧ u.inbox = s.inbox := by
  cases writes with
  | nothing | pair | operator | newWindow => exact ⟨rfl, rfl⟩
  | rolled _ bytes => exact ⟨(commandWrites_foldl_rollByte bytes s).wmax, (commandWrites_foldl_rollByte bytes s).inbox⟩

end

/-! ### The obligations -/

/-- Settles O53: each kind of write changes its own piece of state, and is that of a command the table names. -/
theorem writersAreThoseOfTheAccessTable : Obligations.WritersAreThoseOfTheAccessTable := by
  intro i s t h
  obtain ⟨u, e, d, writes, rfl⟩ := exec_next_writes h
  exact ⟨writes.pair_kept, writes.ring_kept, writes.tables_kept, fun k => writes.operator_kept, writes.parameters_kept⟩

theorem not_writer_of_isRead {i : Instr} (hi : IsRead i = true) :
    WritesPair i = false ∧ WritesRolling i = false ∧ writesOperator i = none := by
  cases i with
  | ckGet32 | ckGet64 | ckRds32 | ckRds64 | rlGet32 | rlGet64 | rlRdob32 | rlRdob64 | tbRd32 | tbRd64 | zrRd32 | zrRd64 =>
    exact ⟨rfl, rfl, rfl⟩
  | ckInit | ckUpd8 | ckUpd64 | ckUpdN | ckWrs32 | ckWrs64 | rlNew | rlRoll | rlRollN | zrNew | zrMul | zrApply =>
    exact absurd hi Bool.false_ne_true

/-- A command that is in no column of the access table writes nothing. -/
theorem Writes.eq_of_isRead {i : Instr} {s u : State} (writes : Writes i s u) (hi : IsRead i = true) : u = s := by
  obtain ⟨noPair, noRolling, noOperator⟩ := not_writer_of_isRead hi
  cases writes with
  | nothing => rfl
  | pair writer => exact absurd (noPair.symm.trans writer) Bool.false_ne_true
  | operator writer => exact absurd (noOperator.symm.trans writer) nofun
  | newWindow writer =>
    subst writer
    exact absurd hi Bool.false_ne_true
  | rolled writer => exact absurd (noRolling.symm.trans writer) Bool.false_ne_true

/-- Settles O52: a read command is in no column of the access table, so it writes nothing, and it gives one response. -/
theorem readCommandsArePure : Obligations.ReadCommandsArePure := by
  intro i s hi
  obtain ⟨u, e, d, hx, writes⟩ := exec_writes i s
  obtain rfl := writes.eq_of_isRead hi
  exact ⟨⟨e, d⟩, hx⟩

end Sys2Proof.Claims
end

section
/-! SUPPORT. The settled obligations of the invariant: it holds at reset, and every step keeps the ring, the out-byte tables and the operators
(spec/10_state.md R33). -/

namespace Sys2Proof.Claims

open Sys2Proof.Machine

/-! ### The step -/

/-- What reset has, and what neither the pending actions nor the responses bear on, every step keeps if every command does. -/
theorem step_keeps {P : State → Prop} (inbox : ∀ s rest, P s → P (s.withInbox rest)) (respond : ∀ s e d, P s → P (s.respond e d))
    (reset : ∀ s : State, P s.afterReset) (command : ∀ i s t, P s → exec i s = .next t → P t) {s t : State} (hs : P s)
    (h : step s = .next t) : P t := by
  obtain ⟨-, rfl⟩ | ⟨rest, -, rfl⟩ | ⟨p, rest, i, -, -, he⟩ | ⟨p, rest, e, -, -, rfl⟩ := step_cases h
  · exact hs
  · exact reset _
  · exact command i _ t (inbox s rest hs) he
  · exact respond _ _ _ (inbox s rest hs)

/-! ### The ring (10_state.md R26, R28) -/

theorem ringWf_rollingContext (s : State) : s.rollingContext.ringWf = s.ringWf := rfl

theorem exec_keeps_ringWf (i : Instr) (s t : State) (ring : s.ringWf = true) (h : exec i s = .next t) : t.ringWf = true := by
  obtain same | ⟨bytes, nonempty, fits, rfl⟩ | ⟨bytes, -, rfl⟩ := exec_rolling_cases h
  · rwa [← ringWf_rollingContext, same]
  · exact ringWf_installWindow nonempty fits
  · exact foldl_rollByte_keeps (P := fun u => u.ringWf = true) (fun _ b hu => ringWf_rollByte hu b) bytes ring

/-- Settles O14: a new window has 1 to WMAX bytes and its read position at slot 0, and a roll moves the position modulo W. -/
theorem stepKeepsRing : Obligations.StepKeepsRing :=
  fun _ _ => step_keeps (P := fun s => s.ringWf = true) (fun _ _ => id) (fun _ _ _ => id) (fun _ => rfl) exec_keeps_ringWf

/-! ### The out-byte tables (10_state.md R33 (b)) -/

theorem tablesInv_rollingContext (s : State) : s.rollingContext.TablesInv ↔ s.TablesInv := Iff.rfl

/-- A window of at most WMAX bytes has its length in W. -/
theorem tablesInv_installWindow {s : State} {bytes : List Byte} (fits : bytes.length ≤ s.wmax.toNat) :
    (s.installWindow bytes).TablesInv := by
  have size : (BitVec.ofNat 32 bytes.length).toNat = bytes.length := Nat.mod_eq_of_lt (fits.trans_lt s.wmax.isLt)
  intro _
  rw [State.ob32_installWindow, State.ob64_installWindow, State.w_installWindow, size]
  exact ⟨rfl, rfl⟩

theorem exec_keeps_tablesInv (i : Instr) (s t : State) (tables : s.TablesInv) (h : exec i s = .next t) : t.TablesInv := by
  obtain same | ⟨bytes, -, fits, rfl⟩ | ⟨bytes, -, rfl⟩ := exec_rolling_cases h
  · rwa [← tablesInv_rollingContext, same]
  · exact tablesInv_installWindow fits
  · exact foldl_rollByte_keeps (P := State.TablesInv) (fun _ b hu => tablesInv_rollByte hu b) bytes tables

/-- Without a window nothing is asked of the tables. -/
theorem tablesInv_of_no_window {s : State} (hv : s.rvalid = false) : s.TablesInv :=
  fun valid => absurd (hv.symm.trans valid) Bool.false_ne_true

/-- Settles O15: a new window comes with the tables of its size, and a roll writes neither. -/
theorem stepKeepsOutByteTables : Obligations.StepKeepsOutByteTables :=
  fun _ _ => step_keeps (P := State.TablesInv) (fun _ _ => id) (fun _ _ _ => id) (fun _ => tablesInv_of_no_window rfl)
    exec_keeps_tablesInv

/-! ### The operator registers (10_state.md R33 (c)) -/

/-- Only `ZR.NEW` and `ZR.MUL` write an operator register (10_state.md R34). -/
theorem eq_of_writesOperator {i : Instr} {k : ZReg} (h : writesOperator i = some k) :
    (∃ count, i = .zrNew k count) ∨ ∃ za zb, i = .zrMul k za zb := by
  cases i with
  | zrNew zd count =>
    obtain rfl := Option.some.inj h
    exact .inl ⟨count, rfl⟩
  | zrMul zd za zb =>
    obtain rfl := Option.some.inj h
    exact .inr ⟨za, zb, rfl⟩
  | ckInit | ckUpd8 | ckUpd64 | ckUpdN | ckGet32 | ckGet64 | ckRds32 | ckRds64 | ckWrs32 | ckWrs64 | tbRd32 | tbRd64 | rlNew | rlRoll
  | rlRollN | rlGet32 | rlGet64 | rlRdob32 | rlRdob64 | zrApply | zrRd32 | zrRd64 => cases h

theorem operatorsInv_reset : State.reset.OperatorsInv := fun k => ⟨0, State.getZr_reset k⟩

theorem exec_keeps_operatorsInv (i : Instr) (s t : State) (operators : s.OperatorsInv) (h : exec i s = .next t) :
    t.OperatorsInv := by
  intro k
  by_cases writer : writesOperator i = some k
  · obtain ⟨count, rfl⟩ | ⟨za, zb, rfl⟩ := eq_of_writesOperator writer
    · rw [exec_zrNew, answer_next_iff] at h
      exact ⟨count.toNat, by rw [h, State.getZr_respond, State.getZr_setZr_self]⟩
    · obtain ⟨na, ha⟩ := operators za
      obtain ⟨nb, hb⟩ := operators zb
      rw [exec_zrMul_of_operators ha hb, answer_next_iff] at h
      exact ⟨na + nb, by rw [h, State.getZr_respond, State.getZr_setZr_self]⟩
  · obtain ⟨u, e, d, writes, rfl⟩ := exec_next_writes h
    rw [State.getZr_respond, writes.operator_kept writer]
    exact operators k

/-- Settles O17: `ZR.NEW` writes the operators for its count, `ZR.MUL` those for the sum of two counts, and nothing else writes a register. -/
theorem stepKeepsOperators : Obligations.StepKeepsOperators :=
  fun _ _ => step_keeps (P := State.OperatorsInv) (fun _ _ => id) (fun _ _ _ => id) (fun _ => operatorsInv_reset)
    exec_keeps_operatorsInv

/-! ### Reset and the idle step -/

/-- Settles O13: reset leaves no window and the operators for no zero bytes. -/
theorem invariantAtReset : Obligations.InvariantAtReset :=
  ⟨ringWf_reset, tablesInv_of_no_window rfl, fun valid => absurd valid Bool.false_ne_true, operatorsInv_reset⟩

/-- Settles O11: the step takes the action and resets. -/
theorem resetActionGivesResetState : Obligations.ResetActionGivesResetState := by
  intro s rest hs
  rw [step, hs]
  rfl

/-- Settles O10: the step finds no action to take. -/
theorem idleStepKeepsState : Obligations.IdleStepKeepsState := by
  intro s hs
  rw [step, hs]

end Sys2Proof.Claims
end

section
/-! SUPPORT. The derived laws of the arithmetic at every width: the product as a commutative ring, tables and byte steps as products with powers
of x, and updates linear over XOR (spec/00_scope.md R13, spec/40_crc32c_engine.md sections 2 to 5, spec/41_crc64xz_engine.md sections 2 to 5). -/

namespace Sys2Proof.Claims

open Sys2Proof.Machine

variable {n : Nat} (poly : BitVec n)

/-! ### The product (00_scope.md R13): the laws of the ring of residues -/

theorem product_comm (a b : BitVec n) : mul poly a b = mul poly b a := by
  apply residue_injective poly
  rw [residue_mul, residue_mul, mul_comm]

theorem product_assoc (a b c : BitVec n) : mul poly (mul poly a b) c = mul poly a (mul poly b c) := by
  apply residue_injective poly
  simp only [residue_mul, mul_assoc]

theorem xor_product (a b c : BitVec n) : mul poly (a ^^^ b) c = mul poly a c ^^^ mul poly b c := by
  apply residue_injective poly
  simp only [residue_mul, residue_xor, add_mul]

theorem product_xor (a b c : BitVec n) : mul poly a (b ^^^ c) = mul poly a b ^^^ mul poly a c := by
  simp only [product_comm poly a, xor_product]

theorem oneP_product (hn : 0 < n) (a : BitVec n) : mul poly (oneP n) a = a := by
  apply residue_injective poly
  rw [residue_mul, residue_oneP poly hn, one_mul]

theorem zero_product (a : BitVec n) : mul poly 0#n a = 0#n := by
  apply residue_injective poly
  rw [residue_mul, residue_zero, zero_mul]

/-- The laws of the product that the spec derives, for one triple of words of width `n`. -/
def ProductLaws (a b c : BitVec n) : Prop :=
  mul poly a b = mul poly b a ∧ mul poly (mul poly a b) c = mul poly a (mul poly b c) ∧
    mul poly (a ^^^ b) c = mul poly a c ^^^ mul poly b c ∧ mul poly a (b ^^^ c) = mul poly a b ^^^ mul poly a c ∧
    mul poly (oneP n) a = a ∧ mul poly 0#n a = 0#n

theorem productLaws (hn : 0 < n) (a b c : BitVec n) : ProductLaws poly a b c :=
  ⟨product_comm poly a b, product_assoc poly a b c, xor_product poly a b c, product_xor poly a b c, oneP_product poly hn a, zero_product poly a⟩

/-! ### Byte steps and tables (40 and 41 sections 2, 3) -/

theorem byteStep_eq_mul_x8P (hn : 8 < n) (s : BitVec n) (b : Byte) : byteStep poly s b = mul poly (s ^^^ b.setWidth n) (x8P n) := by
  rw [byteStep_eq_mulxIter poly hn.le, ← zPow_one poly hn, mul_zPow poly (by omega)]

theorem table_eq_mulxIter (hn : 8 ≤ n) (i : Nat) (b : Byte) : table poly i b = mulxIter poly (8 * (i + 1)) (b.setWidth n) := by
  induction i with
  | zero => rfl
  | succ i ih =>
    have step : byteStep poly (table poly i b) 0#8 = mulxIter poly 8 (table poly i b) := by simp [byteStep_eq_mulxIter poly hn]
    rw [← byteStep_table_zero, step, ih, ← mulxIter_add, Nat.mul_succ 8 (i + 1)]

theorem table_eq_mul_zPow (hn : 8 ≤ n) (i : Nat) (b : Byte) : table poly i b = mul poly (b.setWidth n) (zPow poly (i + 1)) := by
  rw [table_eq_mulxIter poly hn, mul_zPow poly (by omega)]

/-! ### Updates (40 and 41 section 5) -/

/-- Update is linear in the state and the message together, byte step by byte step. -/
theorem upd_xor (s s' : BitVec n) {m m' : List Byte} (h : m.length = m'.length) :
    upd poly (s ^^^ s') (List.zipWith (· ^^^ ·) m m') = upd poly s m ^^^ upd poly s' m' := by
  induction m generalizing s s' m' with
  | nil =>
    obtain rfl := List.length_eq_zero_iff.1 h.symm
    rfl
  | cons b m ih =>
    cases m' with
    | nil => cases h
    | cons b' m' => rw [List.zipWith_cons_cons, upd_cons, byteStep_xor, ih _ _ (Nat.succ.inj h), upd_cons, upd_cons]

/-! ### The obligations -/

/-- Settles O20: the product is that of the ring of residues, at both widths. -/
theorem mulLaws : Obligations.MulLaws :=
  ⟨productLaws poly32 (by decide), productLaws poly64 (by decide)⟩

/-- Settles O21: the byte step is eight multiplications by x, which is one by x^8, at both widths. -/
theorem byteStepIsTimesX8 : Obligations.ByteStepIsTimesX8 :=
  ⟨byteStep_eq_mul_x8P poly32 (by decide), byteStep_eq_mul_x8P poly64 (by decide)⟩

/-- Settles O22: each table is the byte fed and as many zero bytes as the table's number, and so linear. -/
theorem tableClosedForms : Obligations.TableClosedForms :=
  fun i a b =>
    ⟨table_eq_mul_zPow poly32 (by decide) i b, table_xor poly32 i a b, table_eq_mul_zPow poly64 (by decide) i b, table_xor poly64 i a b⟩

/-- Settles O24: both sides are the sum of the eight table entries, for a state of 64 bits. -/
theorem sliceIsEightByteSteps64 : Obligations.SliceIsEightByteSteps64 :=
  fun s _ hd => sliceStep_eq_upd poly64 (by decide) (by decide) s hd

/-- Settles O25: the byte step is linear in state and byte, so the fold over two messages of equal length is. -/
theorem updateIsLinear : Obligations.UpdateIsLinear :=
  fun _ _ h => ⟨fun s s' => upd_xor poly32 s s' h, fun s s' => upd_xor poly64 s s' h⟩

/-- Settles O26: slice steps with byte steps for the rest make the fold, and a fold splits. -/
theorem feedIsFoldOfByteSteps : Obligations.FeedIsFoldOfByteSteps := by
  intro m1 m2
  simp only [feed32_eq_upd32, feed64_eq_upd64]
  exact ⟨fun s => ⟨rfl, upd_append poly32 s m1 m2⟩, fun s => ⟨rfl, upd_append poly64 s m1 m2⟩⟩

/-- Settles O31: the entry is what the oldest byte of a window contributes, here of a window whose other bytes are 0. -/
theorem outByteAsMessages : Obligations.OutByteAsMessages := by
  intro w b hw
  have length : (List.replicate w (0 : Byte)).length = w := List.length_replicate
  rw [← length] at hw
  have entry32 := outByte_eq_upd_xor_upd poly32 (by decide) init32 b hw
  have entry64 := outByte_eq_upd_xor_upd poly64 (by decide) init64 b hw
  rw [length] at entry32 entry64
  rw [entry_outTable32, entry_outTable64]
  exact ⟨entry32, entry64⟩

end Sys2Proof.Claims
end

section
/-! SUPPORT. The settled laws of sequences of commands: chunked updates, the checksum sequence, and what the rolling window holds and answers
(spec/42_checksummer.md section 6, spec/43_rolling.md sections 1, 4, 5). -/

namespace Sys2Proof.Claims

open Sys2Proof.Machine

/-! ### The checksummer (42_checksummer.md section 6) -/

/-- An eight-byte payload is one slice step (R143, R144). -/
theorem exec_ckUpd64_eq_ckUpdN (imm : Word64) (s : State) : exec (.ckUpd64 imm) s = exec (.ckUpdN (messageBytes imm)) s := by
  have slice32_eq : slice32 s.c32 (messageBytes imm) = upd32 s.c32 (messageBytes imm) :=
    sliceStep_eq_upd poly32 (by decide) (by decide) s.c32 (length_messageBytes imm)
  have slice64_eq : slice64 s.c64 (messageBytes imm) = upd64 s.c64 (messageBytes imm) :=
    sliceStep_eq_upd poly64 (by decide) (by decide) s.c64 (length_messageBytes imm)
  rw [exec_ckUpdN, exec, execCkUpd64, slice32_eq, slice64_eq]

/-- Settles O38: the pair is updated by a fold, which splits, and a byte step or a slice step is the fold over its bytes. -/
theorem chunkedUpdateEqualsWhole : Obligations.ChunkedUpdateEqualsWhole := by
  intro s t u v m1 m2 b imm first second whole
  rw [exec_ckUpdN, answer_next_iff] at first second whole
  subst first second whole
  exact ⟨upd_append poly32 s.c32 m1 m2, upd_append poly64 s.c64 m1 m2, (exec_ckUpdN [b] s).symm, exec_ckUpd64_eq_ckUpdN imm s⟩

/-- Settles O39: the four responses one after another, the pair fed from its initial value. -/
theorem checksumSequence : Obligations.ChecksumSequence := by
  intro s bytes
  refine ⟨_, _, _, _, rfl, exec_ckUpdN bytes _, rfl, rfl, ?_⟩
  simp only [State.responses_respond, State.responses_setPair, List.append_assoc]
  rfl

/-! ### The rolling window (43_rolling.md sections 1, 4, 5) -/

/-- Rolling bytes in drops as many of the oldest bytes of the window followed by them. -/
theorem window_foldl_rollByte (bytes : List Byte) {s : State} (ring : s.ringWf = true) (hv : s.rvalid = true) :
    (bytes.foldl State.rollByte s).window = (s.window ++ bytes).drop bytes.length := by
  induction bytes generalizing s with
  | nil => simp
  | cons b bytes ih =>
    obtain ⟨-, -, hpos, hlen⟩ := ringWf_iff.1 ring hv
    have hp : s.pos.toNat < s.win.length := hlen ▸ hpos
    rw [List.foldl_cons, ih (ringWf_rollByte ring b) hv, window_rollByte hp hlen, List.length_cons, window_eq_oldest_cons hp]
    simp

/-- Settles O47: a new window starts at slot 0, and each roll drops the oldest byte and appends the new one. -/
theorem windowAfterRolling : Obligations.WindowAfterRolling := by
  refine ⟨fun s t bytes nonempty fits h => ?_, fun s t bytes ring hv h => ?_⟩
  · rw [exec_rlNew_of_fits nonempty fits, answer_next_iff] at h
    simp [h, State.window]
  · rw [exec, execRlRollN, withWindow_of_valid hv, answer_next_iff] at h
    rw [h]
    exact window_foldl_rollByte bytes ring hv

/-- Settles O46: the rolling states are those of the window, and the read-outs finalize them. -/
theorem rollingAnswersWindowChecksum : Obligations.RollingAnswersWindowChecksum := by
  intro s inv hv
  obtain ⟨-, -, crc, -⟩ := inv
  obtain ⟨hrs32, hrs64⟩ := crc hv
  rw [crc32c, crc64xz, ← hrs32, ← hrs64]
  exact ⟨withWindow_of_valid hv _, withWindow_of_valid hv _⟩

end Sys2Proof.Claims
end

section
/-! SUPPORT. Noninterference: the commands outside the rolling group do not read the rolling context, and while there is no window no step does
(spec/10_state.md sections 6 and 7). -/

namespace Sys2Proof.Machine

/-! ### Outside the rolling context (10_state.md section 7) -/

/-- `r` with the pair, the operator registers and the responses of `s`. -/
def State.withRollingOf (s r : State) : State := { r with c32 := s.c32, c64 := s.c64, zr := s.zr, responses := s.responses }

@[simp] theorem State.c32_withRollingOf (s r : State) : (s.withRollingOf r).c32 = s.c32 := rfl
@[simp] theorem State.c64_withRollingOf (s r : State) : (s.withRollingOf r).c64 = s.c64 := rfl
@[simp] theorem State.getZr_withRollingOf (s r : State) (k : ZReg) : (s.withRollingOf r).getZr k = s.getZr k := rfl

/-- A command outside the rolling group does to the rest of the state what it does whatever the rolling context. -/
theorem exec_withRollingOf {i : Instr} {s t : State} (hi : Claims.IsRolling i = false) (h : exec i s = .next t) (r : State) :
    exec i (s.withRollingOf r) = .next (t.withRollingOf r) := by
  cases i with
  | rlNew | rlRoll | rlRollN | rlGet32 | rlGet64 | rlRdob32 | rlRdob64 => exact absurd hi.symm Bool.false_ne_true
  | ckInit | ckUpd8 | ckUpd64 | ckUpdN | ckGet32 | ckGet64 | ckRds32 | ckRds64 | ckWrs32 | ckWrs64 | tbRd32 | tbRd64 | zrNew
  | zrMul | zrRd32 | zrRd64 =>
    obtain rfl := answer_next_iff.1 h
    rfl
  | zrApply =>
    obtain rfl := answer_next_iff.1 h
    rw [exec, execZrApply, State.c32_withRollingOf, State.c64_withRollingOf, State.getZr_withRollingOf]
    rfl

/-! ### Before there is a window (10_state.md section 6) -/

/-- `s` with the fields of the rolling context that a reset leaves unspecified taken from `r`. -/
def State.withContextOf (s r : State) : State :=
  { s with w := r.w, pos := r.pos, rs32 := r.rs32, rs64 := r.rs64, win := r.win, ob32 := r.ob32, ob64 := r.ob64 }

@[simp] theorem State.c32_withContextOf (s r : State) : (s.withContextOf r).c32 = s.c32 := rfl
@[simp] theorem State.c64_withContextOf (s r : State) : (s.withContextOf r).c64 = s.c64 := rfl
@[simp] theorem State.getZr_withContextOf (s r : State) (k : ZReg) : (s.withContextOf r).getZr k = s.getZr k := rfl

/-- Nobody can tell `t'` from `t`: they are the same once there is a window, and differ at most in the unspecified fields before. -/
def SameButForContext (t t' : State) : Prop := (t.rvalid = true → t' = t) ∧ t' = t.withContextOf t'

theorem sameButForContext_refl (t : State) : SameButForContext t t := ⟨fun _ => rfl, rfl⟩

theorem sameButForContext_of_no_window {t t' : State} (hv : t.rvalid = false) (frame : t' = t.withContextOf t') :
    SameButForContext t t' :=
  ⟨fun valid => absurd (hv.symm.trans valid) Bool.false_ne_true, frame⟩

/-- `RL.NEW` writes every unspecified field, or none where it answers an error. -/
theorem exec_rlNew_withContextOf {bytes : List Byte} {s t : State} (hv : s.rvalid = false) (h : exec (.rlNew bytes) s = .next t) (r : State) :
    ∃ t', exec (.rlNew bytes) (s.withContextOf r) = .next t' ∧ SameButForContext t t' := by
  obtain ⟨empty, rfl⟩ | ⟨long, rfl⟩ | ⟨nonempty, fits, rfl⟩ := execRlNew_next h
  · exact ⟨_, Claims.exec_rlNew_of_empty empty, sameButForContext_of_no_window hv rfl⟩
  · exact ⟨_, Claims.exec_rlNew_of_long long, sameButForContext_of_no_window hv rfl⟩
  · exact ⟨_, Claims.exec_rlNew_of_fits nonempty fits, sameButForContext_refl _⟩

/-- While there is no window a command takes nothing from the unspecified fields. -/
theorem exec_withContextOf {i : Instr} {s t : State} (hv : s.rvalid = false) (h : exec i s = .next t) (r : State) :
    ∃ t', exec i (s.withContextOf r) = .next t' ∧ SameButForContext t t' := by
  cases i with
  | rlNew bytes => exact exec_rlNew_withContextOf hv h r
  | rlRoll | rlRollN | rlGet32 | rlGet64 | rlRdob32 | rlRdob64 =>
    rw [Claims.exec_of_no_window hv rfl, raiseError_next_iff] at h
    subst h
    exact ⟨_, Claims.exec_of_no_window (s := s.withContextOf r) hv rfl, sameButForContext_of_no_window hv rfl⟩
  | ckInit | ckUpd8 | ckUpd64 | ckUpdN | ckGet32 | ckGet64 | ckRds32 | ckRds64 | ckWrs32 | ckWrs64 | tbRd32 | tbRd64 | zrNew
  | zrMul | zrRd32 | zrRd64 =>
    obtain rfl := answer_next_iff.1 h
    exact ⟨_, rfl, sameButForContext_of_no_window hv rfl⟩
  | zrApply =>
    obtain rfl := answer_next_iff.1 h
    rw [exec, execZrApply, State.c32_withContextOf, State.c64_withContextOf, State.getZr_withContextOf]
    exact ⟨_, rfl, sameButForContext_of_no_window hv rfl⟩

/-- While there is no window a step takes nothing from the unspecified fields. -/
theorem step_withContextOf {s t : State} (hv : s.rvalid = false) (h : step s = .next t) (r : State) :
    ∃ t', step (s.withContextOf r) = .next t' ∧ SameButForContext t t' := by
  obtain ⟨hs, rfl⟩ | ⟨rest, hs, rfl⟩ | ⟨p, rest, i, hs, hd, he⟩ | ⟨p, rest, e, hs, hd, rfl⟩ := step_cases h
  · exact ⟨_, Claims.idleStepKeepsState (t.withContextOf r) hs, sameButForContext_of_no_window hv rfl⟩
  · exact ⟨_, Claims.resetActionGivesResetState (s.withContextOf r) rest hs, sameButForContext_refl _⟩
  · obtain ⟨t', he', same⟩ := exec_withContextOf (s := s.withInbox rest) hv he r
    exact ⟨t', (Claims.step_of_decode_ok (s := s.withContextOf r) hs hd).trans he', same⟩
  · exact ⟨_, Claims.step_of_decode_error (s := s.withContextOf r) hs hd, sameButForContext_of_no_window hv rfl⟩

end Sys2Proof.Machine

namespace Sys2Proof.Claims

open Sys2Proof.Machine

/-- Settles O54: the second state is the first with another rolling context, and so is the state after the command. -/
theorem otherGroupsDoNotSeeRolling : Obligations.OtherGroupsDoNotSeeRolling := by
  intro i s s' t t' hi hc32 hc64 hzr hresponses h h'
  have rolling : s' = s.withRollingOf s' := by rw [State.withRollingOf, hc32, hc64, hzr, hresponses]
  rw [rolling, exec_withRollingOf hi h] at h'
  obtain rfl := Host.Outcome.next.inj h'
  exact ⟨rfl, rfl, rfl, rfl⟩

/-- Settles O55: before there is a window no step reads the unspecified fields, and the command that makes one writes them all. -/
theorem unconstructedContextIsUnobservable : Obligations.UnconstructedContextIsUnobservable := by
  rintro s s' t w pos rs32 rs64 win ob32 ob64 hv hs' h
  have context : s' = s.withContextOf s' := by
    rw [hs']
    rfl
  obtain ⟨t', h', same, frame⟩ := step_withContextOf hv h s'
  exact ⟨t', context ▸ h', same, frame⟩

end Sys2Proof.Claims
end
